-- ==== Sys2Proof/Word.lean ====
section
/-! DEFINITION. The word types of SHA256CORE: 32-bit words, bytes, 64-bit length quantities, command and response words. -/

namespace Sys2Proof

/-- A word: 32 bits, unsigned, bit 31 most significant (00_scope.md R6). -/
abbrev Word := BitVec 32

/-- A byte of the message space (20_memory.md R50). -/
abbrev Byte := BitVec 8

/-- A 64-bit quantity: `LEN`, `BLK`, `NBLK` (10_state.md R27, R28, R31). -/
abbrev DWord := BitVec 64

/-- A command word, 40 bits (30_encoding.md R70). -/
abbrev CmdWord := BitVec 40

/-- A response word, 36 bits (30_encoding.md R72). -/
abbrev RspWord := BitVec 36

end Sys2Proof
end

