-- ==== Sys2Proof/Syntax.lean ====
section
/-! DEFINITION. The ten commands, one constructor per row of spec/opcode_table.json (30_encoding.md R73). -/

namespace Sys2Proof

/-- A command with its operands as the command word holds them: `idx` is `cmd[35:32]`, `data` is `cmd[31:0]`, unsigned
and used as they stand (30_encoding.md R75, R76). -/
inductive Instr where
  | init
  | ldw (idx : BitVec 4) (data : Word)
  | rdm (idx : BitVec 4)
  | compress
  | rdh (idx : BitVec 4)
  | ldlenl (data : Word)
  | ldlenh (data : Word)
  | rdsr (idx : BitVec 4)
  | padinit
  | padblk
  deriving DecidableEq, Repr

/-- The mnemonic of 30_encoding.md R73. -/
def Instr.mnemonic : Instr → String
  | .init => "INIT"
  | .ldw _ _ => "LDW"
  | .rdm _ => "RDM"
  | .compress => "COMPRESS"
  | .rdh _ => "RDH"
  | .ldlenl _ => "LDLENL"
  | .ldlenh _ => "LDLENH"
  | .rdsr _ => "RDSR"
  | .padinit => "PADINIT"
  | .padblk => "PADBLK"

end Sys2Proof
end

