-- ==== Sys2Proof/WellFormed.lean ====
section
/-! DEFINITION. Which commands a legal command word can hold (30_encoding.md R74). -/

namespace Sys2Proof

/-- `RDH` and `RDSR` take an index of three bits: `idx[3] = 0` (R74). Every operand of the other commands is legal. -/
def Instr.wf : Instr → Bool
  | .init => true
  | .ldw _ _ => true
  | .rdm _ => true
  | .compress => true
  | .rdh idx => decide (idx.toNat < 8)
  | .ldlenl _ => true
  | .ldlenh _ => true
  | .rdsr idx => decide (idx.toNat < 8)
  | .padinit => true
  | .padblk => true

end Sys2Proof
end

