-- ==== Sys2Proof/Decode.lean ====
section
/-! DEFINITION. The command word: its fields, the opcode table, the decoder (total on all 2^40 words, every illegal
word rejected by name) and the encoder (30_encoding.md R70, R73, R74, R77, R80). -/

namespace Sys2Proof

/-- `cmd[39:36]` (R70). -/
def cmdOp (w : CmdWord) : BitVec 4 := w.extractLsb' 36 4

/-- `cmd[35:32]` (R70, R75). -/
def cmdIdx (w : CmdWord) : BitVec 4 := w.extractLsb' 32 4

/-- `cmd[31:0]` (R70, R76). -/
def cmdData (w : CmdWord) : Word := w.extractLsb' 0 32

/-- The word `op * 2^36 + idx * 2^32 + data` (R70). -/
def cmdWord (op idx : BitVec 4) (data : Word) : CmdWord := op ++ (idx ++ data)

/-- A row of the opcode map (R73). -/
structure OpcodeRow where
  mnemonic : String
  value : CmdWord
  mask : CmdWord
  deriving DecidableEq, Repr

/-- The opcode map, in the order of R73: `value` is its column "match". -/
def opcodeTable : List OpcodeRow := [
  ⟨"INIT", 0x1000000000, 0xffffffffff⟩,
  ⟨"LDW", 0x2000000000, 0xf000000000⟩,
  ⟨"RDM", 0x3000000000, 0xf0ffffffff⟩,
  ⟨"COMPRESS", 0x4000000000, 0xffffffffff⟩,
  ⟨"RDH", 0x5000000000, 0xf8ffffffff⟩,
  ⟨"LDLENL", 0x6000000000, 0xff00000000⟩,
  ⟨"LDLENH", 0x7000000000, 0xff00000000⟩,
  ⟨"RDSR", 0x8000000000, 0xf8ffffffff⟩,
  ⟨"PADINIT", 0x9000000000, 0xffffffffff⟩,
  ⟨"PADBLK", 0xa000000000, 0xffffffffff⟩]

/-- A word matches a row when `(cmd and mask) = match` (R73). -/
def matchesRow (w : CmdWord) (r : OpcodeRow) : Bool := w &&& r.mask == r.value

/-- Why a command word is illegal (R74, R77). -/
inductive IllegalWord where
  /-- `op` is 0x0 or 0xb to 0xf (R77). -/
  | unassignedOpcode
  /-- a non-zero `idx` where the command uses none (R74). -/
  | unusedIdxNotZero
  /-- a non-zero `data` where the command uses none (R74). -/
  | unusedDataNotZero
  /-- `idx[3] = 1` for `RDH` or `RDSR` (R74). -/
  | idxAboveSeven
  deriving DecidableEq, Repr

/-- A command that uses neither operand (R74). -/
def decodePlain (idx : BitVec 4) (data : Word) (i : Instr) : Except IllegalWord Instr :=
  if idx ≠ 0 then .error .unusedIdxNotZero
  else if data ≠ 0 then .error .unusedDataNotZero
  else .ok i

/-- A command that uses `data` only (R74). -/
def decodeData (idx : BitVec 4) (data : Word) (mk : Word → Instr) : Except IllegalWord Instr :=
  if idx ≠ 0 then .error .unusedIdxNotZero else .ok (mk data)

/-- A command that uses all four bits of `idx` and no `data` (R74). -/
def decodeIdx (idx : BitVec 4) (data : Word) (mk : BitVec 4 → Instr) : Except IllegalWord Instr :=
  if data ≠ 0 then .error .unusedDataNotZero else .ok (mk idx)

/-- A command that uses `idx` in 0 to 7 and no `data` (R74). -/
def decodeIdx8 (idx : BitVec 4) (data : Word) (mk : BitVec 4 → Instr) : Except IllegalWord Instr :=
  if 8 ≤ idx.toNat then .error .idxAboveSeven else decodeIdx idx data mk

/-- The decoding procedure (R80), total on all 2^40 words (R78). -/
def decode (w : CmdWord) : Except IllegalWord Instr :=
  match (cmdOp w).toNat with
  | 1 => decodePlain (cmdIdx w) (cmdData w) .init
  | 2 => .ok (.ldw (cmdIdx w) (cmdData w))
  | 3 => decodeIdx (cmdIdx w) (cmdData w) .rdm
  | 4 => decodePlain (cmdIdx w) (cmdData w) .compress
  | 5 => decodeIdx8 (cmdIdx w) (cmdData w) .rdh
  | 6 => decodeData (cmdIdx w) (cmdData w) .ldlenl
  | 7 => decodeData (cmdIdx w) (cmdData w) .ldlenh
  | 8 => decodeIdx8 (cmdIdx w) (cmdData w) .rdsr
  | 9 => decodePlain (cmdIdx w) (cmdData w) .padinit
  | 10 => decodePlain (cmdIdx w) (cmdData w) .padblk
  | _ => .error .unassignedOpcode

/-- The encoder: the inverse of the decoding procedure (R80), the unused operands zero (R74). -/
def encode : Instr → CmdWord
  | .init => cmdWord 0x1 0 0
  | .ldw idx data => cmdWord 0x2 idx data
  | .rdm idx => cmdWord 0x3 idx 0
  | .compress => cmdWord 0x4 0 0
  | .rdh idx => cmdWord 0x5 idx 0
  | .ldlenl data => cmdWord 0x6 0 data
  | .ldlenh data => cmdWord 0x7 0 data
  | .rdsr idx => cmdWord 0x8 idx 0
  | .padinit => cmdWord 0x9 0 0
  | .padblk => cmdWord 0xa 0 0

/-- The command word whose low `nbits` bits are those of `w` and whose other bits are zero (bit 0 least significant, as
the opcode table numbers them; a command word is a parallel value with no byte order, R70, log 13). -/
def tableWord (nbits w : Nat) : CmdWord := BitVec.ofNat 40 (w % 2 ^ nbits)

/-- What the decoder reads from an opcode-table word of `nbits` bits; a word with a bit above bit 39 is no command
word (R79). -/
def decodeTableWord (nbits w : Nat) : Option Instr :=
  if w % 2 ^ nbits < 2 ^ 40 then (decode (tableWord nbits w)).toOption else none

end Sys2Proof
end

