-- ==== Sys2Proof/Config.lean ====
section
/-! DEFINITION. What is fixed for the machine (00_scope.md R5) and the values the spec leaves free. -/

namespace Sys2Proof.Config

/-- `LIMIT_LOG2` (R5); the constant status register `LIMIT` reads it (10_state.md R32). -/
def limitLog2 : Nat := 58

/-- `MAXLEN`, the largest accepted message length in bytes, inclusive (R5, 40_padding_generator.md R103). -/
def maxLen : Nat := 2 ^ limitLog2

/-- `MSG` has the addresses 0 to `addressLimit - 1` (`ADDRW` = 58; R5, 20_memory.md R50). -/
def addressLimit : Nat := 2 ^ 58

/-- What an unlisted address of `MSG` reads as. DESIGN CHOICE, unsafe for claims about `State.reset` only: the spec
gives the message as a parameter of the run; every content of `MSG` can be listed (log 8). -/
def unlistedByte : Byte := 0

/-- The free words: the data of a read that 10_state.md R38 leaves unspecified, and what the registers R36 leaves
unspecified hold. One fresh index per value; nothing in Lean can evaluate it (log 2). -/
opaque freeWord : Nat → Word

/-- `LAT(cmd)`, the latency of the command with this opcode: a parameter that no rule and no definition reads
(R5, 70_reset_and_hazards.md R200; log 14). -/
opaque latency : BitVec 4 → Nat

end Sys2Proof.Config
end

