-- ==== Sys2Proof/Machine/State.lean ====
section
/-! DEFINITION. The state of SHA256CORE (10_state.md R20 to R39), the host's moves, the outcomes' reasons, and the state
after reset. Plain data throughout. -/

namespace Sys2Proof.Machine

/-- `PSTATE`, the state of the padding generator, 2 bits (10_state.md R29). -/
inductive PState where
  | idle
  | armed
  | done
  | error
  deriving DecidableEq, Repr

/-- `PHASE`, the sequencer of the compression engine, 3 bits (10_state.md R24). -/
inductive Phase where
  | idle
  | sched
  | seed
  | round
  | fold
  deriving DecidableEq, Repr

/-- The working variables `a` to `h` (10_state.md R23). -/
structure Vars where
  a : Word
  b : Word
  c : Word
  d : Word
  e : Word
  f : Word
  g : Word
  h : Word
  deriving DecidableEq, Repr

/-- The response codes: exactly four are ever produced (60_exceptions.md R170). -/
inductive RspCode where
  | ok
  | dataTooLarge
  | illegalCommand
  | sequenceError
  deriving DecidableEq, Repr

/-- A response: a code and a data word (30_encoding.md R72). -/
structure Response where
  code : RspCode
  rdata : Word
  deriving DecidableEq, Repr

/-- A move of the host (00_scope.md R12, 43_access_and_status.md R157). -/
inductive HostMove where
  /-- present a command word, any of the 2^40 (R71, R157). -/
  | command (w : CmdWord)
  /-- assert reset between commands (70_reset_and_hazards.md R190). -/
  | reset
  /-- present a command word and assert reset while the command is in progress (R192). -/
  | commandCut (w : CmdWord)
  /-- write a byte of the message memory, which the host owns (20_memory.md R50; log 9). -/
  | storeByte (addr : BitVec 58) (b : Byte)
  deriving DecidableEq, Repr

/-- The message memory `MSG`: (address, byte) pairs in canonical form, see `Memory.wf` (20_memory.md R50; log 8). -/
abbrev Memory := List Host.Cell

/-- The machine. The first fields are the spec's; `hKnown`, `mKnown` and `free` are the model's own. -/
structure State where
  /-- `H[0..7]`, the running state (10_state.md R20). -/
  h : Vector Word 8
  /-- `M[0..15]`, the block buffer (R21). -/
  m : Vector Word 16
  /-- `W[0..63]`, the message schedule, hidden (R22). -/
  w : Vector Word 64
  /-- the working variables, hidden (R23). -/
  vars : Vars
  /-- `PHASE`, hidden (R24). -/
  phase : Phase
  /-- `T`, hidden: counts 0 to 63 and returns to 0 (R24, R33; log 18). -/
  t : Fin 64
  /-- `LEN`, the message length in bytes (R27). -/
  len : DWord
  /-- `BLK`, the index of the next block (R28). -/
  blk : DWord
  /-- `PSTATE` (R29). -/
  pstate : PState
  /-- `MSG`, the message memory, read-only to the device (R35, 20_memory.md R50). -/
  msg : Memory
  /-- the response given to the last command; none after reset (30_encoding.md R72, 10_state.md R37; log 6). -/
  rsp : Option Response
  /-- the command port: the host's moves still to come, the next one first (30_encoding.md R71; log 5). -/
  port : List HostMove
  /-- the model's own: `H` has been given by `INIT`, or by a `COMPRESS` of known operands, since reset (R38; log 2). -/
  hKnown : Bool
  /-- the model's own: word `i` of `M` has been written since reset (R38; log 2). -/
  mKnown : Vector Bool 16
  /-- the model's own: the index of the next free value (log 2). -/
  free : Nat
  deriving DecidableEq, Repr

/-- Why the machine stops. The device itself never hangs (60_exceptions.md R184). -/
inductive Fault where
  /-- `PADBLK` would read an address of `MSG` at or above 2^58, which does not exist (20_memory.md R50). Raised by
  `execPadblk`, only in states outside the invariant of 40_padding_generator.md R100. Safe (log 11). -/
  | noSuchAddress
  deriving DecidableEq, Repr

/-- Why an instruction is refused. -/
inductive Refusal where
  /-- raised by an arm of `exec` whose instruction has no meaning yet. Safe. No arm does. -/
  | notModelled (mnemonic : String)
  deriving DecidableEq, Repr

/-- The state right after reset (10_state.md R37, 70_reset_and_hazards.md R191). The words of `h`, `m`, `w`, `vars` are
DESIGN CHOICE zeros (log 1, log 4): R37 leaves them unspecified, and no read returns them. -/
def State.reset : State where
  h := Vector.replicate 8 0
  m := Vector.replicate 16 0
  w := Vector.replicate 64 0
  vars := ⟨0, 0, 0, 0, 0, 0, 0, 0⟩
  phase := .idle
  t := 0
  len := 0
  blk := 0
  pstate := .idle
  msg := []
  rsp := none
  port := []
  hKnown := false
  mKnown := Vector.replicate 16 false
  free := 0

end Sys2Proof.Machine
end

