-- ==== Sys2Proof/Machine/Operands.lean ====
section
/-! DEFINITION. The operand forms: the index operand, the two halves of a 64-bit register, and the big-endian byte order
(30_encoding.md R75, R76; 20_memory.md R52, R53). -/

namespace Sys2Proof.Machine

/-- The index operand of `LDW` and `RDM`: all sixteen values select a word of `M` (R75). -/
def blockIndex (idx : BitVec 4) : Fin 16 := ⟨idx.toNat, idx.isLt⟩

/-- The index operand of `RDH`: 0 to 7 select a word of `H`, 8 and above nothing (R74, R75). -/
def stateIndex (idx : BitVec 4) : Option (Fin 8) := if hi : idx.toNat < 8 then some ⟨idx.toNat, hi⟩ else none

/-- The status registers by name (10_state.md R30). -/
inductive StatusReg where
  | status
  | lenLo
  | lenHi
  | blkLo
  | blkHi
  | nblkLo
  | nblkHi
  | limit
  deriving DecidableEq, Repr

/-- The index operand of `RDSR`: the register number of 10_state.md R30, 8 and above nothing (R74, R75). -/
def statusIndex (idx : BitVec 4) : Option StatusReg :=
  match idx.toNat with
  | 0 => some .status
  | 1 => some .lenLo
  | 2 => some .lenHi
  | 3 => some .blkLo
  | 4 => some .blkHi
  | 5 => some .nblkLo
  | 6 => some .nblkHi
  | 7 => some .limit
  | _ => none

/-- `v[31:0]` (00_scope.md R6). -/
def lowHalf (v : DWord) : Word := v.extractLsb' 0 32

/-- `v[63:32]` (R6). -/
def highHalf (v : DWord) : Word := v.extractLsb' 32 32

/-- `v` with `v[31:0]` replaced (40_padding_generator.md R96). -/
def withLowHalf (v : DWord) (data : Word) : DWord := highHalf v ++ data

/-- `v` with `v[63:32]` replaced (R97). -/
def withHighHalf (v : DWord) (data : Word) : DWord := data ++ lowHalf v

/-- The word of four consecutive bytes, the one at the lowest position in `[31:24]` (20_memory.md R52). -/
def packWord (b0 b1 b2 b3 : Byte) : Word := b0 ++ (b1 ++ (b2 ++ b3))

end Sys2Proof.Machine
end

