-- ==== Sys2Proof/Machine/Ops.lean ====
section
/-! DEFINITION. The named operations over memory, registers and the response: reading `MSG`, answering and raising, free
values, writing and reading `M` and `H`. -/

namespace Sys2Proof.Machine

/-- `MemRead(addr, 1)` of an address that exists (00_scope.md R9, 20_memory.md R50). -/
def Memory.read : Memory → Nat → Byte
  | [], _ => Config.unlistedByte
  | (a', b') :: rest, a => if a = a' then b' else Memory.read rest a

/-- The host's write of one byte, keeping the canonical form: an entry equal to the unlisted byte is removed (log 8). -/
def Memory.write : Memory → Nat → Byte → Memory
  | [], a, b => if b = Config.unlistedByte then [] else [(a, b)]
  | (a', b') :: rest, a, b =>
    if a < a' then (if b = Config.unlistedByte then (a', b') :: rest else (a, b) :: (a', b') :: rest)
    else if a = a' then (if b = Config.unlistedByte then rest else (a, b) :: rest)
    else (a', b') :: Memory.write rest a b

/-- The canonical form from address `lo` on: addresses strictly rising, all of them existing (R50), no entry equal to the
unlisted byte. -/
def Memory.wfFrom : Nat → Memory → Bool
  | _, [] => true
  | lo, (a, b) :: rest =>
    decide (lo ≤ a) && decide (a < Config.addressLimit) && decide (b ≠ Config.unlistedByte) && Memory.wfFrom (a + 1) rest

/-- The canonical form of `MSG`. -/
def Memory.wf (mem : Memory) : Bool := Memory.wfFrom 0 mem

/-- The number of a response code (60_exceptions.md R170). -/
def RspCode.number : RspCode → BitVec 4
  | .ok => 0
  | .dataTooLarge => 1
  | .illegalCommand => 2
  | .sequenceError => 3

/-- The response word `code * 2^32 + rdata` (30_encoding.md R72). -/
def Response.word (r : Response) : RspWord := r.code.number ++ r.rdata

/-- The one response of a command (R71, R72). -/
def respond (r : Response) (s : State) : State := { s with rsp := some r }

/-- `respond OK(v)` (00_scope.md R10). -/
def respondOk (v : Word) (s : State) : State := respond ⟨.ok, v⟩ s

/-- `raise <Code>`: the command ends, answered with that code and data 0, and no state changes but what its rule stated
before the `raise` (R10, 60_exceptions.md R176). Nothing is saved, no mode changes and control goes nowhere: this is all
there is of taking an exception, and there is no return from one (R177). -/
def raiseCode (c : RspCode) (s : State) : State := respond ⟨c, 0⟩ s

/-- `n` free values, from index `start` on (log 2). -/
@[irreducible] def freeWords (n start : Nat) : Vector Word n := Vector.ofFn fun i => Config.freeWord (start + i.val)

/-- Free values for the eight working variables (log 4). -/
def freeVars (start : Nat) : Vars :=
  ⟨Config.freeWord start, Config.freeWord (start + 1), Config.freeWord (start + 2), Config.freeWord (start + 3),
    Config.freeWord (start + 4), Config.freeWord (start + 5), Config.freeWord (start + 6), Config.freeWord (start + 7)⟩

/-- One fresh free value, and the state that has used it up: an unspecified read (10_state.md R38). -/
def drawWord (s : State) : Word × State := (Config.freeWord s.free, { s with free := s.free + 1 })

/-- All of `H` is unspecified from here on (R38). -/
def dropRunningState (s : State) : State :=
  { s with h := freeWords 8 s.free, hKnown := false, free := s.free + 8 }

/-- All of `M` is unspecified from here on (R37, R38). -/
def dropBlock (s : State) : State :=
  { s with m := freeWords 16 s.free, mKnown := Vector.replicate 16 false, free := s.free + 16 }

/-- The hidden `W` and `a..h` are dead: their contents at a command boundary are unspecified (R36; log 4). -/
def dropHidden (s : State) : State :=
  { s with w := freeWords 64 s.free, vars := freeVars (s.free + 64), free := s.free + 72 }

/-- Write all of `H` (R20): its words are known from here on. -/
def writeRunningState (v : Vector Word 8) (s : State) : State := { s with h := v, hKnown := true }

/-- Write one word of `M` (R21). -/
def writeBlockWord (i : Fin 16) (v : Word) (s : State) : State :=
  { s with m := s.m.set i v, mKnown := s.mKnown.set i true }

/-- Write all sixteen words of `M` (R21). -/
def writeBlock (v : Vector Word 16) (s : State) : State := { s with m := v, mKnown := Vector.replicate 16 true }

/-- Read one word of `H`: the word, or a fresh free value when nothing has given `H` since reset (R38). -/
def readStateWord (i : Fin 8) (s : State) : Word × State := if s.hKnown then (s.h[i], s) else drawWord s

/-- Read one word of `M`: the word, or a fresh free value when it has not been written since reset (R38). -/
def readBlockWord (i : Fin 16) (s : State) : Word × State := if s.mKnown[i] then (s.m[i], s) else drawWord s

/-- Every word that `COMPRESS` reads has been given a value since reset (R38). -/
abbrev operandsKnown (s : State) : Prop := s.hKnown = true ∧ ∀ i : Fin 16, s.mKnown[i] = true

end Sys2Proof.Machine
end

