-- ==== Sys2Proof/Machine/Flags.lean ====
section
/-! DEFINITION. The status a command leaves behind: `PSTATE` is the only flag-like state (10_state.md R34), and the eight
status registers are views of it and of `LEN` and `BLK` (R29 to R32). No addition sets a flag (41_primitives.md R110). -/

namespace Sys2Proof.Machine

/-- The two bits of `PSTATE` (R29). -/
def PState.number : PState → BitVec 2
  | .idle => 0
  | .armed => 1
  | .done => 2
  | .error => 3

/-- `N(L) = floor((L + 8) / 64) + 1`, the number of blocks of a message of `L` bytes (40_padding_generator.md R92, which
corrects the source: 90_conflicts.md C3, C4). -/
def blockCount (L : Nat) : Nat := (L + 8) / 64 + 1

/-- `NBLK`: `N(LEN)` in `ARMED` and `DONE`, 0 in `IDLE` and `ERROR`; no register of its own (R31). -/
def nblk (s : State) : DWord :=
  match s.pstate with
  | .armed => BitVec.ofNat 64 (blockCount s.len.toNat)
  | .done => BitVec.ofNat 64 (blockCount s.len.toNat)
  | .idle => 0
  | .error => 0

/-- The value a status register reads (R30, 43_access_and_status.md R154). -/
def statusValue (r : StatusReg) (s : State) : Word :=
  match r with
  | .status => s.pstate.number.zeroExtend 32
  | .lenLo => lowHalf s.len
  | .lenHi => highHalf s.len
  | .blkLo => lowHalf s.blk
  | .blkHi => highHalf s.blk
  | .nblkLo => lowHalf (nblk s)
  | .nblkHi => highHalf (nblk s)
  | .limit => BitVec.ofNat 32 Config.limitLog2

/-- The generator is disarmed at block 0 (R96, R97). -/
def disarm (s : State) : State := { s with blk := 0, pstate := .idle }

/-- `PSTATE` and `BLK` after a `PADINIT` that finds `LEN <= MAXLEN` (R98). -/
def arm (s : State) : State := { s with blk := 0, pstate := .armed }

/-- `PSTATE` and `BLK` after a `PADINIT` that finds `LEN > MAXLEN` (R98). -/
def enterError (s : State) : State := { s with blk := 0, pstate := .error }

/-- `BLK` and `PSTATE` after a block has been produced: `DONE` with the last block (R99). -/
def advanceBlock (s : State) : State :=
  { s with
    blk := s.blk + 1
    pstate := if (s.blk + 1).toNat = blockCount s.len.toNat then .done else s.pstate }

end Sys2Proof.Machine
end

