-- ==== Sys2Proof/Machine/Access.lean ====
section
/-! DEFINITION. The access commands `LDW`, `RDM`, `RDH`, `RDSR` (43_access_and_status.md R150 to R154). -/

namespace Sys2Proof.Machine

/-- `LDW idx, data` (R150). -/
def execLdw (idx : BitVec 4) (data : Word) (s : State) : Host.Outcome State Fault Refusal :=
  .next (respondOk 0 (writeBlockWord (blockIndex idx) data s))

/-- `RDM idx` (R151). -/
def execRdm (idx : BitVec 4) (s : State) : Host.Outcome State Fault Refusal :=
  .next (respondOk (readBlockWord (blockIndex idx) s).1 (readBlockWord (blockIndex idx) s).2)

/-- `RDH idx` (R152): `ILLEGAL_COMMAND` if `idx >= 8` (log 19). -/
def execRdh (idx : BitVec 4) (s : State) : Host.Outcome State Fault Refusal :=
  match stateIndex idx with
  | some i => .next (respondOk (readStateWord i s).1 (readStateWord i s).2)
  | none => .next (raiseCode .illegalCommand s)

/-- `RDSR idx` (R154): `ILLEGAL_COMMAND` if `idx >= 8` (log 19). -/
def execRdsr (idx : BitVec 4) (s : State) : Host.Outcome State Fault Refusal :=
  match statusIndex idx with
  | some r => .next (respondOk (statusValue r s) s)
  | none => .next (raiseCode .illegalCommand s)

end Sys2Proof.Machine
end

