-- ==== Sys2Proof/Machine/Constants.lean ====
section
/-! DEFINITION. The read-only constants of the compression engine (10_state.md R25, R26): no command writes them and reset
does not affect them. The spec gives both tables and marks them as supplied from general knowledge (log 12). -/

namespace Sys2Proof.Machine

/-- A row of the table of R25: an index `i` and the four words `K[i]` to `K[i+3]`. -/
abbrev KRow := Nat × Word × Word × Word × Word

/-- The rows 0 to 12 of the table of R25, each under its index: `(i, K[i], K[i+1], K[i+2], K[i+3])`. -/
def kRows0 : List KRow := [
  (0, 0x428a2f98, 0x71374491, 0xb5c0fbcf, 0xe9b5dba5),
  (4, 0x3956c25b, 0x59f111f1, 0x923f82a4, 0xab1c5ed5),
  (8, 0xd807aa98, 0x12835b01, 0x243185be, 0x550c7dc3),
  (12, 0x72be5d74, 0x80deb1fe, 0x9bdc06a7, 0xc19bf174)]

/-- The rows 16 to 28 of the table of R25, each under its index: `(i, K[i], K[i+1], K[i+2], K[i+3])`. -/
def kRows1 : List KRow := [
  (16, 0xe49b69c1, 0xefbe4786, 0x0fc19dc6, 0x240ca1cc),
  (20, 0x2de92c6f, 0x4a7484aa, 0x5cb0a9dc, 0x76f988da),
  (24, 0x983e5152, 0xa831c66d, 0xb00327c8, 0xbf597fc7),
  (28, 0xc6e00bf3, 0xd5a79147, 0x06ca6351, 0x14292967)]

/-- The rows 32 to 44 of the table of R25, each under its index: `(i, K[i], K[i+1], K[i+2], K[i+3])`. -/
def kRows2 : List KRow := [
  (32, 0x27b70a85, 0x2e1b2138, 0x4d2c6dfc, 0x53380d13),
  (36, 0x650a7354, 0x766a0abb, 0x81c2c92e, 0x92722c85),
  (40, 0xa2bfe8a1, 0xa81a664b, 0xc24b8b70, 0xc76c51a3),
  (44, 0xd192e819, 0xd6990624, 0xf40e3585, 0x106aa070)]

/-- The rows 48 to 60 of the table of R25, each under its index: `(i, K[i], K[i+1], K[i+2], K[i+3])`. -/
def kRows3 : List KRow := [
  (48, 0x19a4c116, 0x1e376c08, 0x2748774c, 0x34b0bcb5),
  (52, 0x391c0cb3, 0x4ed8aa4a, 0x5b9cca4f, 0x682e6ff3),
  (56, 0x748f82ee, 0x78a5636f, 0x84c87814, 0x8cc70208),
  (60, 0x90befffa, 0xa4506ceb, 0xbef9a3f7, 0xc67178f2)]

/-- The table of R25. -/
def kTable : List KRow := kRows0 ++ kRows1 ++ kRows2 ++ kRows3

/-- The four words of a row, in the order of their indices. -/
def kRowWords : KRow → List Word
  | (_, w0, w1, w2, w3) => [w0, w1, w2, w3]

/-- `K[0..63]`, the round constants; `K[i]` is read by round `i` of `COMPRESS` and by nothing else (R25). -/
def roundConstants : Vector Word 64 := ⟨(kTable.flatMap kRowWords).toArray, rfl⟩

/-- `IV[0..7]`, the initial state; read by `INIT` and by nothing else (R26). -/
def initialState : Vector Word 8 := #v[
  0x6a09e667, 0xbb67ae85, 0x3c6ef372, 0xa54ff53a,
  0x510e527f, 0x9b05688c, 0x1f83d9ab, 0x5be0cd19]

end Sys2Proof.Machine
end

