-- ==== Sys2Proof/Machine/Primitives.lean ====
section
/-! DEFINITION. The datapath primitives of the compression engine (41_primitives.md R110 to R120): pure functions of
32-bit words. -/

namespace Sys2Proof.Machine

/-- `add32(x, y) = (x + y) mod 2^32`; the carry out of bit 31 is discarded (R110). -/
def add32 (x y : Word) : Word := x + y

/-- `rotr(x, n)`, right rotation by `n` places, `1 <= n <= 31` (R111). -/
def rotr (x : Word) (n : Nat) : Word := (x >>> n) ||| (x <<< (32 - n))

/-- `shr(x, n)`, logical (zero-fill) right shift (R112). -/
def shr (x : Word) (n : Nat) : Word := x >>> n

/-- `Ch(x, y, z) = (x and y) xor ((not x) and z)` (R115). -/
def ch (x y z : Word) : Word := (x &&& y) ^^^ ((~~~x) &&& z)

/-- The exclusive or of three words, the `x xor y xor z` of R116 to R120. -/
def xor3 (x y z : Word) : Word := (x ^^^ y) ^^^ z

/-- `Maj(x, y, z) = (x and y) xor (x and z) xor (y and z)` (R116). -/
def maj (x y z : Word) : Word := xor3 (x &&& y) (x &&& z) (y &&& z)

/-- `BigSigma0` (R117). -/
def bigSigma0 (x : Word) : Word := xor3 (rotr x 2) (rotr x 13) (rotr x 22)

/-- `BigSigma1` (R118). -/
def bigSigma1 (x : Word) : Word := xor3 (rotr x 6) (rotr x 11) (rotr x 25)

/-- `LittleSigma0`; its third term is a shift (R119). -/
def littleSigma0 (x : Word) : Word := xor3 (rotr x 7) (rotr x 18) (shr x 3)

/-- `LittleSigma1`; its third term is a shift (R120). -/
def littleSigma1 (x : Word) : Word := xor3 (rotr x 17) (rotr x 19) (shr x 10)

end Sys2Proof.Machine
end

