-- ==== Sys2Proof/Machine/Compression.lean ====
section
/-! DEFINITION. The compression engine and its commands `INIT` and `COMPRESS` (42_compression_engine.md R130 to R147). The
sequence of 130 internal steps (R140) is the meaning of `COMPRESS`; the function `Compress` (R143) is written beside it. -/

namespace Sys2Proof.Machine

/-- The four-term sum of the schedule recurrence (R132). -/
def expandWord (w2 w7 w15 w16 : Word) : Word := add32 (add32 (add32 (littleSigma1 w2) w7) (littleSigma0 w15)) w16

/-- `t1` of a round (R134). -/
def roundT1 (v : Vars) (k w : Word) : Word := add32 (add32 (add32 (add32 v.h (bigSigma1 v.e)) (ch v.e v.f v.g)) k) w

/-- `t2` of a round (R134). -/
def roundT2 (v : Vars) : Word := add32 (bigSigma0 v.a) (maj v.a v.b v.c)

/-- The update of a round, all right-hand sides old values (R135). -/
def roundUpdate (v : Vars) (k w : Word) : Vars where
  h := v.g
  g := v.f
  f := v.e
  e := add32 v.d (roundT1 v k w)
  d := v.c
  c := v.b
  b := v.a
  a := add32 (roundT1 v k w) (roundT2 v)

/-- Seed the working variables from the running state, in index order (R133). -/
def seedVars (h : Vector Word 8) : Vars := ⟨h[0], h[1], h[2], h[3], h[4], h[5], h[6], h[7]⟩

/-- Add each working variable into its running-state word (R139). -/
def foldVars (h : Vector Word 8) (v : Vars) : Vector Word 8 :=
  #v[add32 h[0] v.a, add32 h[1] v.b, add32 h[2] v.c, add32 h[3] v.d,
    add32 h[4] v.e, add32 h[5] v.f, add32 h[6] v.g, add32 h[7] v.h]

/-! ### The function `Compress` (R143) -/

/-- The first `n` words of the message schedule of block `b`: sixteen copied, the rest expanded (R131, R132). -/
def scheduleList (b : Vector Word 16) : Nat → List Word
  | 0 => []
  | n + 1 =>
    let ws := scheduleList b n
    ws ++ [if hn : n < 16 then b[n] else
      expandWord (ws.getD (n - 2) 0) (ws.getD (n - 7) 0) (ws.getD (n - 15) 0) (ws.getD (n - 16) 0)]

/-- The message schedule `W[0..63]` of block `b` (R131, R132). -/
def schedule (b : Vector Word 16) : Vector Word 64 :=
  Vector.ofFn fun i => (scheduleList b 64).getD i.val 0

/-- The working variables after the rounds 0 to `n - 1` (R134, R135, R136). -/
def roundsUpTo (w : Vector Word 64) (v : Vars) : Nat → Vars
  | 0 => v
  | n + 1 => roundUpdate (roundsUpTo w v n) (roundConstants.toList.getD n 0) (w.toList.getD n 0)

/-- `Compress(S, B)` (R143): a function of the state and the block alone. -/
def compressFn (st : Vector Word 8) (b : Vector Word 16) : Vector Word 8 :=
  foldVars st (roundsUpTo (schedule b) (seedVars st) 64)

/-- The chaining value after a sequence of blocks (R144). -/
def chainFn (st : Vector Word 8) (blocks : List (Vector Word 16)) : Vector Word 8 := blocks.foldl compressFn st

/-- The digest as a 256-bit number: `H[0]` is the most significant word (43_access_and_status.md R153). -/
def digestOf (h : Vector Word 8) : BitVec 256 :=
  h[0] ++ (h[1] ++ (h[2] ++ (h[3] ++ (h[4] ++ (h[5] ++ (h[6] ++ h[7]))))))

/-! ### The sequence inside `COMPRESS` (R140) -/

/-- `T` moves on within its phase, or the next phase begins with `T = 0` (R140). -/
def advanceT (nextPhase : Phase) (s : State) : State :=
  if s.t = 63 then { s with phase := nextPhase, t := 0 } else { s with t := s.t + 1 }

/-- The word that step `T` of the schedule phase writes: a copy of `M[T]`, or the expansion (R131, R132, R140). -/
def scheduleStepWord (s : State) : Word :=
  if ht : s.t.val < 16 then s.m[s.t.val]
  else expandWord s.w[s.t.val - 2] s.w[s.t.val - 7] s.w[s.t.val - 15] s.w[s.t.val - 16]

/-- One internal step of `COMPRESS` (R140). -/
def engineStep (s : State) : State :=
  match s.phase with
  | .idle => s
  | .sched => advanceT .seed { s with w := s.w.set s.t (scheduleStepWord s) }
  | .seed => { s with vars := seedVars s.h, phase := .round, t := 0 }
  | .round => advanceT .fold { s with vars := roundUpdate s.vars roundConstants[s.t] s.w[s.t] }
  | .fold => { s with h := foldVars s.h s.vars, phase := .idle, t := 0 }

/-- `n` internal steps. -/
def engineRun : Nat → State → State
  | 0, s => s
  | n + 1, s => engineRun n (engineStep s)

/-- The number of internal steps of one `COMPRESS`: 16 copy, 48 expand, 1 seed, 64 rounds, 1 fold (R140). -/
def engineSteps : Nat := 130

/-- The sequencer leaves `IDLE` for `SCHED` (R140). -/
def engineStart (s : State) : State := { s with phase := .sched, t := 0 }

/-- The whole sequence of one `COMPRESS` (R140). -/
@[irreducible] def compressRun (s : State) : State := engineRun engineSteps (engineStart s)

/-! ### The commands -/

/-- `INIT` (R141). -/
def execInit (s : State) : Host.Outcome State Fault Refusal :=
  .next (respondOk 0 (writeRunningState initialState s))

/-- `COMPRESS` (R142): the sequence of R140, after which the hidden registers are dead (10_state.md R36); when a word of
`H` or `M` has not been written since reset, all of `H` is unspecified (R38; log 3). It cannot fail. -/
def execCompress (s : State) : Host.Outcome State Fault Refusal :=
  if operandsKnown s then .next (respondOk 0 (dropHidden (compressRun s)))
  else .next (respondOk 0 (dropHidden (dropRunningState s)))

end Sys2Proof.Machine
end

