-- ==== Sys2Proof/Machine/Padding.lean ====
section
/-! DEFINITION. The padding block generator and its commands `LDLENL`, `LDLENH`, `PADINIT`, `PADBLK`
(40_padding_generator.md R90 to R103). Index arithmetic is integer arithmetic (R93, 41_primitives.md R122). -/

namespace Sys2Proof.Machine

/-- `PadByte(L, p)`, byte `p` of the padded stream of a message of `L` bytes (R94). -/
def padByte (mem : Memory) (L p : Nat) : Byte :=
  if p < L then mem.read p
  else if p = L then 0x80
  else if p < 64 * blockCount L - 8 then 0x00
  else BitVec.ofNat 8 ((8 * L) >>> (8 * (64 * blockCount L - 1 - p)))

/-- `PadWord(L, k, j)`, word `j` of block `k`, big-endian (R95, 20_memory.md R52). -/
def padWord (mem : Memory) (L k j : Nat) : Word :=
  packWord (padByte mem L (64 * k + 4 * j)) (padByte mem L (64 * k + 4 * j + 1))
    (padByte mem L (64 * k + 4 * j + 2)) (padByte mem L (64 * k + 4 * j + 3))

/-- Block `k` of the padded message (R95). -/
@[irreducible] def padBlock (mem : Memory) (L k : Nat) : Vector Word 16 := Vector.ofFn fun j => padWord mem L k j.val

/-- The addresses of `MSG` that the `PADBLK` of block `k` reads: `64k <= p < min(64k + 64, L)` (20_memory.md R64). Their
order is not a claim (R55; log 10). -/
def padReads (L k : Nat) : List Nat := List.range' (64 * k) (min (64 * k + 64) L - 64 * k)

/-- `LDLENL data` (R96). -/
def execLdlenl (data : Word) (s : State) : Host.Outcome State Fault Refusal :=
  .next (respondOk 0 (disarm { s with len := withLowHalf s.len data }))

/-- `LDLENH data` (R97). -/
def execLdlenh (data : Word) (s : State) : Host.Outcome State Fault Refusal :=
  .next (respondOk 0 (disarm { s with len := withHighHalf s.len data }))

/-- `PADINIT` (R98): the bound is inclusive. -/
def execPadinit (s : State) : Host.Outcome State Fault Refusal :=
  if Config.maxLen < s.len.toNat then .next (raiseCode .dataTooLarge (enterError s))
  else .next (respondOk 0 (arm s))

/-- `PADBLK` (R99). The fault is for a read of an address that does not exist, which the invariant of R100 excludes
(log 11). -/
def execPadblk (s : State) : Host.Outcome State Fault Refusal :=
  match s.pstate with
  | .error => .next (raiseCode .dataTooLarge s)
  | .idle => .next (raiseCode .sequenceError s)
  | .done => .next (raiseCode .sequenceError s)
  | .armed =>
    if ∀ p ∈ padReads s.len.toNat s.blk.toNat, p < Config.addressLimit then
      .next (respondOk 0 (advanceBlock (writeBlock (padBlock s.msg s.len.toNat s.blk.toNat) s)))
    else .fault .noSuchAddress

end Sys2Proof.Machine
end

