-- ==== Sys2Proof/Machine/Dispatch.lean ====
section
/-! DEFINITION. One arm per command, each a direct call of its meaning. -/

namespace Sys2Proof.Machine

def exec (i : Instr) (s : State) : Host.Outcome State Fault Refusal :=
  match i with
  | .init => Sys2Proof.Machine.execInit s
  | .ldw idx data => Sys2Proof.Machine.execLdw idx data s
  | .rdm idx => Sys2Proof.Machine.execRdm idx s
  | .compress => Sys2Proof.Machine.execCompress s
  | .rdh idx => Sys2Proof.Machine.execRdh idx s
  | .ldlenl data => Sys2Proof.Machine.execLdlenl data s
  | .ldlenh data => Sys2Proof.Machine.execLdlenh data s
  | .rdsr idx => Sys2Proof.Machine.execRdsr idx s
  | .padinit => Sys2Proof.Machine.execPadinit s
  | .padblk => Sys2Proof.Machine.execPadblk s

end Sys2Proof.Machine
end

