-- ==== Sys2Proof/Machine/Port.lean ====
section
/-! DEFINITION. The command port and the host's other moves: presenting a command word, reset, a command cut by reset, a
write of the message memory (30_encoding.md R71, 70_reset_and_hazards.md R190 to R192, 20_memory.md R50). -/

namespace Sys2Proof.Machine

/-- The device accepts a command word: legality is checked first, whatever the state (60_exceptions.md R175); an illegal
word is answered `ILLEGAL_COMMAND` and changes nothing (30_encoding.md R77); a legal one is carried out (R80). -/
def acceptWord (w : CmdWord) (s : State) : Host.Outcome State Fault Refusal :=
  match decode w with
  | .ok i => exec i s
  | .error _ => .next (raiseCode .illegalCommand s)

/-- The event reset (R190, R191; 10_state.md R37): control state as R37 gives it, data registers unspecified, no response
pending. `MSG` is the host's and stays (log 7). -/
def resetDevice (s : State) : State :=
  { dropHidden (dropBlock (dropRunningState s)) with
    phase := .idle
    t := 0
    len := 0
    blk := 0
    pstate := .idle
    rsp := none }

/-- The next of the host's moves happens. A command cut by reset gives no response and leaves the reset state (R192). With
no move pending the device does nothing (R191). -/
def takeMove (s : State) : Host.Outcome State Fault Refusal :=
  match s.port with
  | [] => .next s
  | .command w :: rest => acceptWord w { s with port := rest }
  | .reset :: rest => .next (resetDevice { s with port := rest })
  | .commandCut _ :: rest => .next (resetDevice { s with port := rest })
  | .storeByte a b :: rest => .next { s with msg := s.msg.write a.toNat b, port := rest }

end Sys2Proof.Machine
end

