-- ==== Sys2Proof/Machine/Step.lean ====
section
/-! DEFINITION. One step of the machine: the next of the host's moves, a command being one step (30_encoding.md R71). -/

namespace Sys2Proof.Machine

/-- One step (00_scope.md R12: a step kind for each agent; log 5, log 18). -/
def step (s : State) : Host.Outcome State Fault Refusal := takeMove s

/-- `s` with this command word presented next on the port (the device fetches nothing: 10_state.md R33; log 5). -/
def State.withFetchWord (s : State) (nbits w : Nat) : State :=
  { s with port := .command (tableWord nbits w) :: s.port }

end Sys2Proof.Machine
end

