-- ==== Sys2Proof/Machine/Assembler.lean ====
section
/-! DEFINITION. The command sequences the spec writes: pseudo-instructions, the assembler text of a command, the host's
sequences (30_encoding.md R81, R82; 43_access_and_status.md R155, R156). None has an encoding of its own
(log 20). -/

namespace Sys2Proof.Machine

/-- A sequence of commands, each run on the state the one before it left (20_memory.md R58). -/
def execAll : List Instr → State → Host.Outcome State Fault Refusal
  | [], s => .next s
  | i :: is, s =>
    match exec i s with
    | .next s' => execAll is s'
    | .fault r => .fault r
    | .refused r => .refused r

/-- `LDLEN v` (R82). -/
def ldlen (v : DWord) : List Instr := [.ldlenh (highHalf v), .ldlenl (lowHalf v)]

/-- `LDBLK w0, ..., w15` (R82). -/
def ldblk (b : Vector Word 16) : List Instr :=
  (List.finRange 16).map fun i => .ldw (BitVec.ofNat 4 i.val) b[i]

/-- `HASHBLK` (R82). -/
def hashblk : List Instr := [.padblk, .compress]

/-- `RDDIGEST` (R82). -/
def rddigest : List Instr := (List.range 8).map fun i => .rdh (BitVec.ofNat 4 i)

/-- The loop "repeat `n` times: `PADBLK`, `COMPRESS`" (R155). -/
def hashLoop : Nat → List Instr
  | 0 => []
  | n + 1 => hashblk ++ hashLoop n

/-- The host's sequence for a message whose length is `len`, up to the reading of the digest (R155). -/
def hashSequence (len : DWord) : List Instr :=
  ldlen len ++ [.padinit, .init] ++ hashLoop (blockCount len.toNat)

/-- The host's sequence without the generator, for blocks it has padded itself (R156). -/
def engineSequence : List (Vector Word 16) → List Instr
  | [] => []
  | b :: bs => ldblk b ++ [.compress] ++ engineSequence bs

/-- `n` hexadecimal digits of `v`, most significant first, in lower case (R81). -/
def hexDigits : Nat → Nat → List Char
  | 0, _ => []
  | n + 1, v => hexDigits n (v / 16) ++ [Nat.digitChar (v % 16)]

/-- The assembler text of a command (R81). -/
def asmText : Instr → String
  | .init => "INIT"
  | .ldw idx data => "LDW " ++ toString idx.toNat ++ ", 0x" ++ String.ofList (hexDigits 8 data.toNat)
  | .rdm idx => "RDM " ++ toString idx.toNat
  | .compress => "COMPRESS"
  | .rdh idx => "RDH " ++ toString idx.toNat
  | .ldlenl data => "LDLENL 0x" ++ String.ofList (hexDigits 8 data.toNat)
  | .ldlenh data => "LDLENH 0x" ++ String.ofList (hexDigits 8 data.toNat)
  | .rdsr idx => "RDSR " ++ toString idx.toNat
  | .padinit => "PADINIT"
  | .padblk => "PADBLK"

end Sys2Proof.Machine
end

