-- ==== Sys2Proof/Safety.lean ====
section
/-! DEFINITION. What holds at every command boundary, and what a safe step is (40_padding_generator.md R100,
10_state.md R24, 60_exceptions.md R170, R184). -/

namespace Sys2Proof.Machine

/-- The generator's invariants (R100): what `PSTATE` says of `LEN` and `BLK`. -/
def generatorOk (s : State) : Prop :=
  match s.pstate with
  | .idle => s.blk = 0
  | .armed => s.len.toNat ≤ Config.maxLen ∧ s.blk.toNat < blockCount s.len.toNat
  | .done => s.len.toNat ≤ Config.maxLen ∧ s.blk.toNat = blockCount s.len.toNat
  | .error => Config.maxLen < s.len.toNat ∧ s.blk = 0

/-- The sequencer rests at every command boundary (10_state.md R24). -/
def sequencerOk (s : State) : Prop := s.phase = .idle ∧ s.t = 0

/-- With any code other than `OK` the data field of the response is 0 (R170). -/
def responseOk (s : State) : Prop := ∀ r, s.rsp = some r → r.code ≠ .ok → r.rdata = 0

/-- The invariant of the machine at a command boundary. -/
structure Inv (s : State) : Prop where
  generator : generatorOk s
  sequencer : sequencerOk s
  response : responseOk s
  message : s.msg.wf = true

/-- A safe step: the machine goes on (R184). -/
def StepsOn (s : State) : Prop := ∃ t, step s = .next t

/-! ### The terms of claims -/

/-- The command runs, gives the state `t`, and is answered with this code and data (30_encoding.md R72). -/
def Answers (i : Instr) (s t : State) (c : RspCode) (v : Word) : Prop :=
  exec i s = .next t ∧ t.rsp = some ⟨c, v⟩

/-- The port answers the word `ILLEGAL_COMMAND` and nothing else changes (R77). -/
def RefusesWord (w : CmdWord) (s : State) : Prop :=
  acceptWord w s = .next { s with rsp := some ⟨.illegalCommand, 0⟩ }

/-- `H` is as before. -/
def sameRunningState (s t : State) : Prop := t.h = s.h ∧ t.hKnown = s.hKnown

/-- `M` is as before. -/
def sameBlock (s t : State) : Prop := t.m = s.m ∧ t.mKnown = s.mKnown

/-- `W`, the working variables, `PHASE` and `T` are as before. -/
def sameHidden (s t : State) : Prop := t.w = s.w ∧ t.vars = s.vars ∧ t.phase = s.phase ∧ t.t = s.t

/-- `LEN`, `BLK` and `PSTATE` are as before. -/
def sameGenerator (s t : State) : Prop := t.len = s.len ∧ t.blk = s.blk ∧ t.pstate = s.pstate

/-- Every byte of `MSG` reads as before. -/
def sameMemory (s t : State) : Prop := ∀ a, t.msg.read a = s.msg.read a

/-- The moves still to come are as before. -/
def samePort (s t : State) : Prop := t.port = s.port

/-- The commands of the compression engine and the block buffer: they take no part in the generator's state
(10_state.md R39). -/
def usesEngine : Instr → Bool
  | .init => true
  | .ldw _ _ => true
  | .rdm _ => true
  | .compress => true
  | .rdh _ => true
  | .ldlenl _ => false
  | .ldlenh _ => false
  | .rdsr _ => false
  | .padinit => false
  | .padblk => false

/-- `LDLENL` and `LDLENH`: the commands that write `LEN` (R39). -/
def loadsLength : Instr → Bool
  | .ldlenl _ => true
  | .ldlenh _ => true
  | .init => false
  | .ldw _ _ => false
  | .rdm _ => false
  | .compress => false
  | .rdh _ => false
  | .rdsr _ => false
  | .padinit => false
  | .padblk => false

/-- The commands whose response carries a word that was read (30_encoding.md R72). -/
def readsWord : Instr → Bool
  | .rdm _ => true
  | .rdh _ => true
  | .rdsr _ => true
  | .init => false
  | .ldw _ _ => false
  | .compress => false
  | .ldlenl _ => false
  | .ldlenh _ => false
  | .padinit => false
  | .padblk => false

end Sys2Proof.Machine
end

