-- ==== Sys2Proof/Certificates/Slice0/Obligations.lean ====
section
/-! DEFINITION. The statements for the provers. Rules R<n> are those of spec/; `log <n>` is notes/assumptions/<n>.md. -/

open Sys2Proof Sys2Proof.Machine

/-! ### Command words -/

/-- R80, second half of its last sentence read from the encoder's side: decode after encode is the identity on every
well-formed command, every operand at every value. -/
def Obligations.DecodeOfEncode : Prop := ∀ i : Instr, i.wf = true → decode (encode i) = .ok i

/-- R80: encode after decode is the identity on legal words, and what the decoder gives is well formed. -/
def Obligations.EncodeOfDecode : Prop := ∀ (w : CmdWord) (i : Instr), decode w = .ok i → i.wf = true ∧ encode i = w

/-- R73: a word is legal exactly when it matches a row, it matches at most one, and it decodes to the command that row
names. -/
def Obligations.LegalIffExactlyOneRowMatches : Prop :=
  ∀ w : CmdWord,
    ((∃ i, decode w = .ok i) ↔ ∃ r ∈ opcodeTable, matchesRow w r = true) ∧
    (∀ r ∈ opcodeTable, ∀ r' ∈ opcodeTable, matchesRow w r = true → matchesRow w r' = true → r = r') ∧
    (∀ i, decode w = .ok i → ∃ r ∈ opcodeTable, r.mnemonic = i.mnemonic ∧ matchesRow w r = true)

/-- R74: which fields must be zero, command by command; the masks of R73 say the same. -/
def Obligations.UnusedFieldsMustBeZero : Prop :=
  ∀ (idx : BitVec 4) (data : Word),
    (∀ op : BitVec 4, op = 0x1 ∨ op = 0x4 ∨ op = 0x9 ∨ op = 0xa →
      ((∃ i, decode (cmdWord op idx data) = .ok i) ↔ idx = 0 ∧ data = 0)) ∧
    ((∃ i, decode (cmdWord 0x3 idx data) = .ok i) ↔ data = 0) ∧
    (∀ op : BitVec 4, op = 0x5 ∨ op = 0x8 →
      ((∃ i, decode (cmdWord op idx data) = .ok i) ↔ data = 0 ∧ idx.getLsbD 3 = false)) ∧
    (∀ op : BitVec 4, op = 0x6 ∨ op = 0x7 → ((∃ i, decode (cmdWord op idx data) = .ok i) ↔ idx = 0)) ∧
    (decode (cmdWord 0x2 idx data) = .ok (.ldw idx data)) ∧
    (∀ op : BitVec 4, (∃ i, decode (cmdWord op idx data) = .ok i) ↔
      ∃ r ∈ opcodeTable, matchesRow (cmdWord op idx data) r = true)

/-- R77: a word that matches no row is answered `ILLEGAL_COMMAND` with data 0 and changes no state, whatever the
state; among them are all words whose `op` is 0x0 or 0xb to 0xf and all words with a non-zero bit in a field their
command does not use. -/
def Obligations.IllegalWordAnsweredAndChangesNothing : Prop :=
  ∀ (s : State) (w : CmdWord) (rest : List HostMove), s.port = .command w :: rest →
    ((∀ r ∈ opcodeTable, matchesRow w r = false) →
      step s = .next { s with port := rest, rsp := some ⟨.illegalCommand, 0⟩ }) ∧
    ((cmdOp w = 0x0 ∨ 0xb ≤ (cmdOp w).toNat ∨
        ((cmdOp w = 0x1 ∨ cmdOp w = 0x4 ∨ cmdOp w = 0x9 ∨ cmdOp w = 0xa) ∧ (cmdIdx w ≠ 0 ∨ cmdData w ≠ 0)) ∨
        (cmdOp w = 0x3 ∧ cmdData w ≠ 0) ∨
        ((cmdOp w = 0x5 ∨ cmdOp w = 0x8) ∧ (8 ≤ (cmdIdx w).toNat ∨ cmdData w ≠ 0)) ∨
        ((cmdOp w = 0x6 ∨ cmdOp w = 0x7) ∧ cmdIdx w ≠ 0)) →
      ∀ r ∈ opcodeTable, matchesRow w r = false) ∧
    Response.word ⟨.illegalCommand, 0⟩ = 0x200000000

/-- R71, R80: a step that finds a legal command word on the port runs the command it decodes to, on the state without
that word; and so does a step of a state that was given the word of an opcode-table row. -/
def Obligations.StepRunsDecodedCommand : Prop :=
  (∀ (s : State) (w : CmdWord) (rest : List HostMove) (i : Instr), s.port = .command w :: rest → decode w = .ok i →
    step s = exec i { s with port := rest }) ∧
  (∀ (s : State) (w : Nat) (i : Instr), decodeTableWord 40 w = some i → step (s.withFetchWord 40 w) = exec i s)

/-- Words written out from R70 and R73 (95_test_vectors.md T8). -/
def Obligations.SpecWordsDecodeAsTheSpecSays : Prop :=
  decode 0b0001000000000000000000000000000000000000 = .ok .init ∧
  decode 0b0010111100000000000000000000000000011000 = .ok (.ldw 15 0x00000018) ∧
  decode 0b0011111100000000000000000000000000000000 = .ok (.rdm 15) ∧
  decode 0b0100000000000000000000000000000000000000 = .ok .compress ∧
  decode 0b0101011100000000000000000000000000000000 = .ok (.rdh 7) ∧
  decode 0b0110000000000000000000000000000000111000 = .ok (.ldlenl 0x00000038) ∧
  decode 0b0111000000000100000000000000000000000000 = .ok (.ldlenh 0x04000000) ∧
  decode 0b1000011100000000000000000000000000000000 = .ok (.rdsr 7) ∧
  decode 0b1001000000000000000000000000000000000000 = .ok .padinit ∧
  decode 0b1010000000000000000000000000000000000000 = .ok .padblk ∧
  decode 0x5800000000 = .error .idxAboveSeven ∧
  decode 0x1100000000 = .error .unusedIdxNotZero ∧
  decode 0x4000000001 = .error .unusedDataNotZero ∧
  decode 0xb000000000 = .error .unassignedOpcode

/-! ### Responses and errors -/

/-- R71, R72, R170: a command that runs gives one response; its data is 0 with every code but `OK` and for every
command that reads no word; the response word is `code * 2^32 + rdata` and the code is 0 to 3. -/
def Obligations.EveryCommandGivesOneResponse : Prop :=
  (∀ (i : Instr) (s t : State), exec i s = .next t →
    ∃ r, t.rsp = some r ∧ (r.code ≠ .ok → r.rdata = 0) ∧ (readsWord i = false → r.rdata = 0)) ∧
  (∀ r : Response, r.word.toNat = r.code.number.toNat * 2 ^ 32 + r.rdata.toNat ∧ r.code.number.toNat ≤ 3) ∧
  (RspCode.ok.number = 0 ∧ RspCode.dataTooLarge.number = 1 ∧ RspCode.illegalCommand.number = 2 ∧
    RspCode.sequenceError.number = 3)

/-- R175: legality of the word first, whatever the state; then `PADBLK`'s state check; then `PADINIT`'s length check.
-/
def Obligations.ErrorPriority : Prop :=
  ∀ s : State,
    (∀ w : CmdWord, (¬ ∃ i, decode w = .ok i) → RefusesWord w s) ∧
    (s.pstate = .error → ∃ t, Answers .padblk s t .dataTooLarge 0) ∧
    (s.pstate = .idle ∨ s.pstate = .done → ∃ t, Answers .padblk s t .sequenceError 0) ∧
    (2 ^ 58 < s.len.toNat → ∃ t, Answers .padinit s t .dataTooLarge 0)

/-- R176: an error changes nothing but the response, except `PADINIT`'s `DATA_TOO_LARGE`, which writes `BLK <- 0` and
`PSTATE <- ERROR` and nothing else. -/
def Obligations.ErrorsChangeNothingElse : Prop :=
  (∀ (i : Instr) (s t : State) (r : Response), exec i s = .next t → t.rsp = some r → r.code ≠ .ok →
    (i = .padinit ∧ r.code = .dataTooLarge ∧ t = { s with blk := 0, pstate := .error, rsp := some r }) ∨
    (i ≠ .padinit ∧ t = { s with rsp := some r })) ∧
  (∀ (w : CmdWord) (s : State), (¬ ∃ i, decode w = .ok i) → RefusesWord w s)

/-- R177: no command but `LDLENL` and `LDLENH` leaves `ERROR`, those two do, reset does, and in `ERROR` the engine's
commands run as always. -/
def Obligations.ErrorIsLeftOnlyByLengthLoadOrReset : Prop :=
  ∀ s : State, Inv s → s.pstate = .error →
    (∀ (i : Instr) (t : State), exec i s = .next t → (t.pstate ≠ .error ↔ loadsLength i = true)) ∧
    (∀ i : Instr, loadsLength i = true → ∃ t, exec i s = .next t ∧ t.pstate = .idle) ∧
    (resetDevice s).pstate = .idle ∧
    (∀ i : Instr, usesEngine i = true → i.wf = true → ∃ (t : State) (v : Word), Answers i s t .ok v)

/-- R103, R171: while `LEN` exceeds 2^58 neither `PADINIT` nor `PADBLK` is ever answered `OK`; `M` and `H` keep their
words, and `LEN` keeps the offending value, under both. (`LDLENL` and `LDLENH` are answered `OK` then too: R96, R97.)
-/
def Obligations.OversizedLengthNeverYieldsBlock : Prop :=
  ∀ s : State, Inv s → 2 ^ 58 < s.len.toNat →
    (∃ t, Answers .padinit s t .dataTooLarge 0 ∧ t.len = s.len ∧ sameBlock s t ∧ sameRunningState s t ∧
      ∃ u, Answers .padblk t u .dataTooLarge 0 ∧ u.len = s.len ∧ sameBlock s u ∧ sameRunningState s u) ∧
    (∃ t c, Answers .padblk s t c 0 ∧ c ≠ .ok ∧ t.len = s.len ∧ sameBlock s t ∧ sameRunningState s t)

/-! ### Datapath primitives -/

/-- R110: addition modulo 2^32, commutative and associative, with its corner cases. -/
def Obligations.AddIsSumModulo32 : Prop :=
  ∀ x y z : Word,
    (add32 x y).toNat = (x.toNat + y.toNat) % 2 ^ 32 ∧ add32 x y = add32 y x ∧
    add32 (add32 x y) z = add32 x (add32 y z) ∧ add32 x 0 = x ∧
    add32 0xffffffff 1 = 0 ∧ add32 0xffffffff 0xffffffff = 0xfffffffe ∧ add32 0x80000000 0x80000000 = 0 ∧
    add32 0x7fffffff 1 = 0x80000000

/-- R111: the formula of the right rotation, where each bit comes from, and its corner cases. -/
def Obligations.RotrMovesEveryBit : Prop :=
  ∀ (x : Word) (n : Nat), 1 ≤ n → n ≤ 31 →
    (rotr x n).toNat = (x.toNat >>> n) ||| ((x.toNat <<< (32 - n)) % 2 ^ 32) ∧
    (∀ i, i < 32 → (rotr x n).getLsbD i = x.getLsbD ((i + n) % 32)) ∧
    rotr 0 n = 0 ∧ rotr 0xffffffff n = 0xffffffff ∧ (rotr 1 n).toNat = 2 ^ (32 - n) ∧
    rotr 1 2 = 0x40000000 ∧ rotr 1 25 = 0x00000080 ∧ rotr 0x80000001 2 = 0x60000000

/-- R112: the logical right shift is floor division by `2^n`; its `n` high bits are zero. -/
def Obligations.ShrIsFloorDivision : Prop :=
  ∀ (x : Word) (n : Nat), 1 ≤ n → n ≤ 31 →
    (shr x n).toNat = x.toNat / 2 ^ n ∧ (∀ i, 32 - n ≤ i → i < 32 → (shr x n).getLsbD i = false) ∧
    shr 0xffffffff 3 = 0x1fffffff ∧ shr 0xffffffff 10 = 0x003fffff ∧ shr 0x80000000 3 = 0x10000000 ∧ shr 7 3 = 0

/-- R115, R116: the two formulas; `Ch` takes a bit of `y` where `x` has a 1 and of `z` where it has a 0; `Maj` is the
value that at least two of its three inputs have, and is symmetric. -/
def Obligations.ChChoosesAndMajVotes : Prop :=
  ∀ (x y z : Word) (i : Nat), i < 32 →
    ch x y z = (x &&& y) ^^^ (~~~x &&& z) ∧ maj x y z = ((x &&& y) ^^^ (x &&& z)) ^^^ (y &&& z) ∧
    ((ch x y z).getLsbD i = if x.getLsbD i then y.getLsbD i else z.getLsbD i) ∧
    ((maj x y z).getLsbD i =
      decide (2 ≤ (x.getLsbD i).toNat + (y.getLsbD i).toNat + (z.getLsbD i).toNat)) ∧
    (ch 0xffffffff y z = y ∧ ch 0 y z = z ∧ ch x y y = y) ∧
    ch 0x0f0f0f0f 0x12345678 0x9abcdef0 = 0x92b4d6f8 ∧ ch 0x510e527f 0x9b05688c 0x1f83d9ab = 0x1f85c98c ∧
    (maj x y z = maj y x z ∧ maj x y z = maj x z y) ∧
    (maj x x z = x ∧ maj 0 y z = y &&& z ∧ maj 0xffffffff y z = y ||| z) ∧
    maj 0xffffffff 0x12345678 0x9abcdef0 = 0x9abcdef8 ∧ maj 0 0x12345678 0x9abcdef0 = 0x12345670 ∧
    maj 0x6a09e667 0xbb67ae85 0x3c6ef372 = 0x3a6fe667

/-- R117 to R120: each sigma function's formula, bit `i` of it, and the rules' corner cases; the third term of the
little ones is a shift, so it has no bit from beyond bit 31. -/
def Obligations.SigmaFunctionsBitByBit : Prop :=
  (bigSigma0 0 = 0 ∧ bigSigma0 0xffffffff = 0xffffffff ∧ bigSigma0 1 = 0x40080400 ∧ bigSigma0 0x80000000 = 0x20040200 ∧
    bigSigma0 0x6a09e667 = 0xce20b47e) ∧
  (bigSigma1 0 = 0 ∧ bigSigma1 0xffffffff = 0xffffffff ∧ bigSigma1 1 = 0x04200080 ∧ bigSigma1 0x80000000 = 0x02100040 ∧
    bigSigma1 0x510e527f = 0x3587272b) ∧
  (littleSigma0 0 = 0 ∧ littleSigma0 0xffffffff = 0x1fffffff ∧ littleSigma0 1 = 0x02004000 ∧
    littleSigma0 0x80000000 = 0x11002000 ∧ littleSigma0 0x12345678 = 0xe7fce6ee) ∧
  (littleSigma1 0 = 0 ∧ littleSigma1 0xffffffff = 0x003fffff ∧ littleSigma1 1 = 0x0000a000 ∧
    littleSigma1 0x80000000 = 0x00205000 ∧ littleSigma1 0x12345678 = 0xa1f78649) ∧
  ∀ (x : Word) (i : Nat), i < 32 →
    (bigSigma0 x = (rotr x 2 ^^^ rotr x 13) ^^^ rotr x 22 ∧ bigSigma1 x = (rotr x 6 ^^^ rotr x 11) ^^^ rotr x 25 ∧
      littleSigma0 x = (rotr x 7 ^^^ rotr x 18) ^^^ shr x 3 ∧ littleSigma1 x = (rotr x 17 ^^^ rotr x 19) ^^^ shr x 10) ∧
    ((bigSigma0 x).getLsbD i =
      ((x.getLsbD ((i + 2) % 32) ^^ x.getLsbD ((i + 13) % 32)) ^^ x.getLsbD ((i + 22) % 32))) ∧
    ((bigSigma1 x).getLsbD i =
      ((x.getLsbD ((i + 6) % 32) ^^ x.getLsbD ((i + 11) % 32)) ^^ x.getLsbD ((i + 25) % 32))) ∧
    ((littleSigma0 x).getLsbD i =
      ((x.getLsbD ((i + 7) % 32) ^^ x.getLsbD ((i + 18) % 32)) ^^ (decide (i + 3 < 32) && x.getLsbD (i + 3)))) ∧
    ((littleSigma1 x).getLsbD i =
      ((x.getLsbD ((i + 17) % 32) ^^ x.getLsbD ((i + 19) % 32)) ^^ (decide (i + 10 < 32) && x.getLsbD (i + 10))))

/-- R123: the identities of `Ch`, `Maj` and the rotation, and that the four sigma functions are linear over `xor`. -/
def Obligations.PrimitiveIdentities : Prop :=
  (∀ x y z : Word, ch x y z = z ^^^ (x &&& (y ^^^ z)) ∧ ch x y z = (x &&& y) ||| (~~~x &&& z) ∧
    maj x y z = (x &&& y) ||| (z &&& (x ||| y)) ∧ maj x y z = (x &&& y) ^^^ (z &&& (x ^^^ y))) ∧
  (∀ (x : Word) (m n : Nat), 1 ≤ m → m ≤ 31 → 1 ≤ n → n ≤ 31 → (m + n) % 32 ≠ 0 →
    rotr (rotr x m) n = rotr x ((m + n) % 32)) ∧
  (∀ (x y : Word) (n : Nat), 1 ≤ n → n ≤ 31 →
    rotr (x ^^^ y) n = rotr x n ^^^ rotr y n ∧ shr (x ^^^ y) n = shr x n ^^^ shr y n) ∧
  (∀ x y : Word, bigSigma0 (x ^^^ y) = bigSigma0 x ^^^ bigSigma0 y ∧ bigSigma1 (x ^^^ y) = bigSigma1 x ^^^ bigSigma1 y ∧
    littleSigma0 (x ^^^ y) = littleSigma0 x ^^^ littleSigma0 y ∧
    littleSigma1 (x ^^^ y) = littleSigma1 x ^^^ littleSigma1 y)

/-! ### The compression engine -/

/-- R131, R132: after the 64 schedule steps of a `COMPRESS` the register file `W` holds the sixteen words of `M` and
then the recurrence, all additions modulo 2^32; `M` is unchanged; an all-zero block gives an all-zero schedule. -/
def Obligations.ScheduleIsCopyThenRecurrence : Prop :=
  ∀ s : State,
    let w := (engineRun 64 (engineStart s)).w
    (∀ i : Fin 16, w[i.val] = s.m[i]) ∧
    (∀ (i : Nat) (_ : 16 ≤ i) (_ : i < 64),
      w[i] = littleSigma1 w[i - 2] + w[i - 7] + littleSigma0 w[i - 15] + w[i - 16]) ∧
    (engineRun 64 (engineStart s)).m = s.m ∧
    (s.m = Vector.replicate 16 0 → w = Vector.replicate 64 0)

/-- R134, R135: one round step, with `t1` and `t2` computed from the old values. -/
def Obligations.RoundStepUpdatesVariables : Prop :=
  ∀ s : State, s.phase = .round →
    let v := s.vars
    let t1 := v.h + bigSigma1 v.e + ch v.e v.f v.g + roundConstants[s.t] + s.w[s.t]
    let t2 := bigSigma0 v.a + maj v.a v.b v.c
    (engineStep s).vars = ⟨t1 + t2, v.a, v.b, v.c, v.d + t1, v.e, v.f, v.g⟩ ∧
    (engineStep s).h = s.h ∧ (engineStep s).w = s.w ∧ (engineStep s).m = s.m

/-- R140, R24: the phase and the counter after each of the 130 internal steps. The sequence is the same whatever the
data. -/
def Obligations.SequencerTimetable : Prop :=
  ∀ (s : State) (n : Nat),
    let u := engineRun n (engineStart s)
    (n < 64 → u.phase = .sched ∧ u.t.val = n) ∧ (n = 64 → u.phase = .seed ∧ u.t = 0) ∧
    (65 ≤ n → n < 129 → u.phase = .round ∧ u.t.val = n - 65) ∧ (n = 129 → u.phase = .fold ∧ u.t = 0) ∧
    (n = 130 → u.phase = .idle ∧ u.t = 0)

/-- R140, R143: the 130 internal steps compute the function `Compress` of the running state and the block, and change
nothing but `H` and the hidden registers. -/
def Obligations.SequenceComputesCompress : Prop :=
  ∀ s : State,
    engineRun 130 (engineStart s) =
      { s with
        h := compressFn s.h s.m
        w := schedule s.m
        vars := roundsUpTo (schedule s.m) (seedVars s.h) 64
        phase := .idle
        t := 0 }

/-- R142 with every word of `H` and `M` written since reset: `COMPRESS` completes, `H` becomes `Compress(H, M)`, the
sequencer rests, and everything else but the hidden registers is as before. The premise that the operands are known
and the conclusion `hKnown` speak of the model's own marks (log 2); the other case is `CompressOfUnwrittenOperands`.
-/
def Obligations.CompressFoldsTheBlock : Prop :=
  ∀ s : State, operandsKnown s →
    ∃ t, Answers .compress s t .ok 0 ∧ t.h = compressFn s.h s.m ∧ t.hKnown = true ∧ t.phase = .idle ∧ t.t = 0 ∧
      sameBlock s t ∧ sameGenerator s t ∧ sameMemory s t ∧ samePort s t

/-- R38 (log 3): with a word of `H` or `M` not written since reset, `COMPRESS` completes too, all of `H` is
unspecified, and everything else but the hidden registers is as before. No value of the unspecified words is claimed.
-/
def Obligations.CompressOfUnwrittenOperands : Prop :=
  ∀ s : State, ¬ operandsKnown s →
    ∃ t, Answers .compress s t .ok 0 ∧ t.hKnown = false ∧ t.phase = s.phase ∧ t.t = s.t ∧
      sameBlock s t ∧ sameGenerator s t ∧ sameMemory s t ∧ samePort s t

/-- R196: `COMPRESS` given twice compresses the same block twice. The premise speaks of the model's own marks (log 2).
-/
def Obligations.CompressTwiceFoldsTheBlockTwice : Prop :=
  ∀ s : State, operandsKnown s →
    ∃ t u, Answers .compress s t .ok 0 ∧ Answers .compress t u .ok 0 ∧
      u.h = compressFn (compressFn s.h s.m) s.m ∧ u.m = s.m

/-- R141: `INIT` loads the eight constants in every state, touches nothing else, and given twice has the effect of
once; a word of `INIT` with a non-zero field is refused. That `hKnown` is set is the model's own (log 2). The eight
words are the spec's table, supplied there from general knowledge (log 12). -/
def Obligations.InitLoadsInitialState : Prop :=
  ∀ s : State,
    (∃ t, Answers .init s t .ok 0 ∧
      t.h = #v[0x6a09e667, 0xbb67ae85, 0x3c6ef372, 0xa54ff53a, 0x510e527f, 0x9b05688c, 0x1f83d9ab, 0x5be0cd19] ∧
      t.hKnown = true ∧ exec .init t = .next t ∧
      sameBlock s t ∧ sameHidden s t ∧ sameGenerator s t ∧ sameMemory s t ∧ samePort s t) ∧
    (∀ (idx : BitVec 4) (data : Word), idx ≠ 0 ∨ data ≠ 0 → RefusesWord (cmdWord 0x1 idx data) s)

/-- R39, R177 (D27): the engine's commands read nothing of the generator: two states that agree on `H`, `M`, their
marks and the free counter (the marks and the counter are the model's own, log 2) give the same `H`, `M` and response,
whatever `LEN`, `BLK`, `PSTATE` and `MSG` are. -/
def Obligations.EngineIgnoresGenerator : Prop :=
  ∀ (i : Instr) (s s' : State), usesEngine i = true → sameRunningState s s' → sameBlock s s' → s'.free = s.free →
    ∃ t t', exec i s = .next t ∧ exec i s' = .next t' ∧
      (operandsKnown s ∨ i ≠ .compress → sameRunningState t t') ∧ sameBlock t t' ∧ t'.rsp = t.rsp ∧
      sameGenerator s t ∧ sameGenerator s' t'

/-! ### The padding block generator -/

/-- R92: the block count, its two equivalent forms, and the spec's values. -/
def Obligations.BlockCountIsLeast : Prop :=
  (∀ L : Nat,
    blockCount L = (L + 8) / 64 + 1 ∧ (L % 64 ≤ 55 → blockCount L = L / 64 + 1) ∧ (56 ≤ L % 64 → blockCount L = L / 64 + 2) ∧
    L + 9 ≤ 64 * blockCount L ∧ (∀ n, L + 9 ≤ 64 * n → blockCount L ≤ n)) ∧
  (blockCount 0 = 1 ∧ blockCount 55 = 1 ∧ blockCount 56 = 2 ∧ blockCount 63 = 2 ∧ blockCount 64 = 2 ∧
    blockCount 119 = 2 ∧ blockCount 120 = 3 ∧ blockCount (2 ^ 58) = 2 ^ 52 + 1)

/-- R91, R93: the ranges for an accepted length, and the two facts the other rules use. -/
def Obligations.LengthArithmeticFitsIn64Bits : Prop :=
  ∀ L : Nat, L ≤ 2 ^ 58 →
    L + 8 < 2 ^ 59 ∧ blockCount L ≤ 2 ^ 52 + 1 ∧ 64 * blockCount L ≤ 2 ^ 58 + 64 ∧ 8 * L ≤ 2 ^ 61 ∧
    L ≤ 64 * blockCount L - 9 ∧ 64 * (blockCount L - 1) ≤ L + 8

/-- R94: the four cases of a byte of the padded stream; no position falls under two of them. -/
def Obligations.PaddedStreamFourCases : Prop :=
  ∀ (mem : Memory) (L p : Nat), p < 64 * blockCount L →
    (p < L → padByte mem L p = mem.read p) ∧ (p = L → padByte mem L p = 0x80) ∧
    (L < p → p < 64 * blockCount L - 8 → padByte mem L p = 0x00) ∧
    (64 * blockCount L - 8 ≤ p →
      L < p ∧ (padByte mem L p).toNat = 8 * L / 2 ^ (8 * (64 * blockCount L - 1 - p)) % 256)

/-- R90, R101: the padded stream is the message, one delimiter byte, zero bytes, and the bit length in eight bytes
with the most significant first; its length is a positive multiple of 512 bits. -/
def Obligations.PaddedStreamMeetsContract : Prop :=
  ∀ (mem : Memory) (L : Nat), L ≤ 2 ^ 58 →
    (List.range (64 * blockCount L)).map (padByte mem L) =
      (List.range L).map mem.read ++ [0x80] ++ List.replicate (64 * blockCount L - 9 - L) 0x00 ++
        (List.range 8).map (fun i => ((BitVec.ofNat 64 (8 * L)).extractLsb' (8 * (7 - i)) 8 : Byte)) ∧
    512 ∣ 8 * ((List.range (64 * blockCount L)).map (padByte mem L)).length ∧ 1 ≤ blockCount L

/-- R52: word `j` of block `k` holds the stream positions `64k + 4j` to `64k + 4j + 3`, the first in bits 31 to 24;
and the spec's example. -/
def Obligations.BlockWordsAreBigEndian : Prop :=
  (∀ (mem : Memory) (L k : Nat) (j : Fin 16) (b : Nat), b < 4 →
    ((padBlock mem L k)[j].extractLsb' (24 - 8 * b) 8 : Byte) = padByte mem L (64 * k + 4 * j.val + b)) ∧
  (∀ mem : Memory, mem.read 0 = 0x61 → mem.read 1 = 0x62 → mem.read 2 = 0x63 → (padBlock mem 3 0)[0] = 0x61626380)

/-- R53, R95: the last two words of the last block are the bit length, the more significant word first. -/
def Obligations.LastBlockHoldsBitLength : Prop :=
  ∀ (mem : Memory) (L : Nat), L ≤ 2 ^ 58 →
    (padBlock mem L (blockCount L - 1))[14].toNat = 8 * L / 2 ^ 32 ∧
    (padBlock mem L (blockCount L - 1))[15].toNat = 8 * L % 2 ^ 32

/-- R64: the addresses that the `PADBLK` of block `k` reads, how many there are, where each byte lands, and that the
block depends on no other byte of `MSG`. -/
def Obligations.PadblkReadsExactlyItsBytes : Prop :=
  ∀ (L k : Nat), L ≤ 2 ^ 58 → k < blockCount L →
    (∀ p, p ∈ padReads L k ↔ 64 * k ≤ p ∧ p < min (64 * k + 64) L) ∧
    (64 * k + 64 ≤ L → (padReads L k).length = 64) ∧
    (64 * k ≤ L → L < 64 * k + 64 → (padReads L k).length = L - 64 * k) ∧
    (L ≤ 64 * k → padReads L k = []) ∧
    (∀ p ∈ padReads L k, p < 2 ^ 58) ∧
    (∀ (mem : Memory) (j : Fin 16) (b : Nat), b < 4 → 64 * k + 4 * j.val + b < L →
      ((padBlock mem L k)[j].extractLsb' (24 - 8 * b) 8 : Byte) = mem.read (64 * k + 4 * j.val + b)) ∧
    (∀ mem mem' : Memory, (∀ p ∈ padReads L k, mem.read p = mem'.read p) → padBlock mem L k = padBlock mem' L k)

/-- R96: `LDLENL` writes the low half of `LEN`, leaves the high half, disarms in every state so that a `PADBLK` is
then refused, and touches nothing else; a word with `idx` not 0 is refused. -/
def Obligations.LdlenlLoadsLowHalf : Prop :=
  ∀ (data : Word) (s : State),
    (∃ t, Answers (.ldlenl data) s t .ok 0 ∧
      t.len.toNat % 2 ^ 32 = data.toNat ∧ t.len.toNat / 2 ^ 32 = s.len.toNat / 2 ^ 32 ∧ t.blk = 0 ∧ t.pstate = .idle ∧
      sameRunningState s t ∧ sameBlock s t ∧ sameHidden s t ∧ sameMemory s t ∧ samePort s t ∧
      ∃ u, Answers .padblk t u .sequenceError 0) ∧
    (∀ idx : BitVec 4, idx ≠ 0 → RefusesWord (cmdWord 0x6 idx data) s)

/-- R97: `LDLENH` writes the high half of `LEN`, leaves the low half, disarms as `LDLENL` does, and touches nothing
else; the two halves may be loaded in either order; a word with `idx` not 0 is refused. -/
def Obligations.LdlenhLoadsHighHalf : Prop :=
  ∀ (data : Word) (s : State),
    (∃ t, Answers (.ldlenh data) s t .ok 0 ∧
      t.len.toNat / 2 ^ 32 = data.toNat ∧ t.len.toNat % 2 ^ 32 = s.len.toNat % 2 ^ 32 ∧ t.blk = 0 ∧ t.pstate = .idle ∧
      sameRunningState s t ∧ sameBlock s t ∧ sameHidden s t ∧ sameMemory s t ∧ samePort s t ∧
      ∃ u, Answers .padblk t u .sequenceError 0) ∧
    (∀ lo : Word, ∃ t t',
      execAll [.ldlenh data, .ldlenl lo] s = .next t ∧ execAll [.ldlenl lo, .ldlenh data] s = .next t' ∧ t = t' ∧
      t.len.toNat = data.toNat * 2 ^ 32 + lo.toNat) ∧
    (∀ idx : BitVec 4, idx ≠ 0 → RefusesWord (cmdWord 0x7 idx data) s)

/-- R98: `PADINIT` in any state: `BLK` is 0; with `LEN` at most 2^58 the generator is armed and the answer is `OK`,
above it the generator is in `ERROR` and the answer is `DATA_TOO_LARGE`; nothing else is written; a malformed word is
refused. -/
def Obligations.PadinitChecksLengthAndArms : Prop :=
  ∀ s : State,
    (s.len.toNat ≤ 2 ^ 58 → ∃ t, Answers .padinit s t .ok 0 ∧ t.pstate = .armed ∧ t.blk = 0 ∧ t.len = s.len ∧
      sameRunningState s t ∧ sameBlock s t ∧ sameHidden s t ∧ sameMemory s t ∧ samePort s t) ∧
    (2 ^ 58 < s.len.toNat → ∃ t, Answers .padinit s t .dataTooLarge 0 ∧ t.pstate = .error ∧ t.blk = 0 ∧ t.len = s.len ∧
      sameRunningState s t ∧ sameBlock s t ∧ sameHidden s t ∧ sameMemory s t ∧ samePort s t) ∧
    (∀ (idx : BitVec 4) (data : Word), idx ≠ 0 ∨ data ≠ 0 → RefusesWord (cmdWord 0x9 idx data) s)

/-- R99: `PADBLK` armed, with what R100 says of `ARMED`: all sixteen words of `M` are block `BLK` of the padded
message, `BLK` moves on, `PSTATE` becomes `DONE` with the last block and stays `ARMED` before it, and nothing else is
written. In the other states it is refused and writes nothing; a malformed word is refused. That `mKnown` is set is
the model's own (log 2). -/
def Obligations.PadblkProducesNextBlock : Prop :=
  ∀ s : State,
    (s.pstate = .armed → s.len.toNat ≤ 2 ^ 58 → s.blk.toNat < blockCount s.len.toNat →
      ∃ t, Answers .padblk s t .ok 0 ∧
        (∀ j : Fin 16, t.m[j] = padWord s.msg s.len.toNat s.blk.toNat j.val ∧ t.mKnown[j] = true) ∧
        t.blk.toNat = s.blk.toNat + 1 ∧ t.len = s.len ∧
        t.pstate = (if s.blk.toNat + 1 = blockCount s.len.toNat then .done else .armed) ∧
        sameRunningState s t ∧ sameHidden s t ∧ sameMemory s t ∧ samePort s t) ∧
    (s.pstate = .error → exec .padblk s = .next { s with rsp := some ⟨.dataTooLarge, 0⟩ }) ∧
    (s.pstate = .idle ∨ s.pstate = .done → exec .padblk s = .next { s with rsp := some ⟨.sequenceError, 0⟩ }) ∧
    (∀ (idx : BitVec 4) (data : Word), idx ≠ 0 ∨ data ≠ 0 → RefusesWord (cmdWord 0xa idx data) s)

/-- The model's one stop (log 11; R50 says which addresses exist): `PADBLK` faults exactly when it would read an
address at or above 2^58, which R100 excludes in every state at a command boundary. -/
def Obligations.PadblkFaultsOnlyOnMissingAddress : Prop :=
  ∀ s : State,
    (exec .padblk s = .fault .noSuchAddress ↔
      s.pstate = .armed ∧ ∃ p, 64 * s.blk.toNat ≤ p ∧ p < min (64 * s.blk.toNat + 64) s.len.toNat ∧ 2 ^ 58 ≤ p) ∧
    (Inv s → exec .padblk s ≠ .fault .noSuchAddress)

/-- R99, R101: `PADINIT` and then `PADBLK` `k` times delivers block `k - 1`, in `DONE` exactly after the last; one
`PADBLK` more is refused. -/
def Obligations.PadblkDeliversBlocksInOrder : Prop :=
  ∀ (s : State) (k : Nat), s.len.toNat ≤ 2 ^ 58 → 1 ≤ k → k ≤ blockCount s.len.toNat →
    ∃ t, execAll (.padinit :: List.replicate k .padblk) s = .next t ∧
      t.m = padBlock s.msg s.len.toNat (k - 1) ∧ t.blk.toNat = k ∧
      t.pstate = (if k = blockCount s.len.toNat then .done else .armed) ∧
      (k = blockCount s.len.toNat → ∃ u, Answers .padblk t u .sequenceError 0 ∧ u.m = t.m)

/-- D27 (R39): the generator's commands read nothing of the engine: two states that agree on `LEN`, `BLK`, `PSTATE`
and `MSG` give the same `LEN`, `BLK`, `PSTATE` and response, and `M` is in both the same block or in both as it was.
-/
def Obligations.GeneratorIgnoresEngine : Prop :=
  ∀ (i : Instr) (s s' t : State), usesEngine i = false → sameGenerator s s' → s'.msg = s.msg → exec i s = .next t →
    ∃ t', exec i s' = .next t' ∧ sameGenerator t t' ∧ t'.rsp = t.rsp ∧
      (t'.m = t.m ∨ (t.m = s.m ∧ t'.m = s'.m)) ∧ sameRunningState s t ∧ sameRunningState s' t'

/-! ### Access commands -/

/-- R150, R62: `LDW` writes the one word that `idx` selects, for every `idx` and `data`, touches nothing else, and the
next `RDM` of that word returns it. The marks `mKnown` are the model's own (log 2). -/
def Obligations.LdwWritesOneWord : Prop :=
  ∀ (idx : BitVec 4) (data : Word) (s : State),
    ∃ t, Answers (.ldw idx data) s t .ok 0 ∧
      (∀ j : Fin 16, t.m[j] = (if j.val = idx.toNat then data else s.m[j]) ∧
        t.mKnown[j] = (if j.val = idx.toNat then true else s.mKnown[j])) ∧
      sameRunningState s t ∧ sameHidden s t ∧ sameGenerator s t ∧ sameMemory s t ∧ samePort s t ∧
      ∃ u, Answers (.rdm idx) t u .ok data

/-- R151: `RDM` answers `OK` with the word of `M` that `idx` selects and changes nothing; when that word has not been
written since reset the data is some word (none is claimed) and nothing changes but the model's free counter; a word
with `data` not 0 is refused. -/
def Obligations.RdmReadsBlockWord : Prop :=
  ∀ (idx : BitVec 4) (s : State),
    (∀ j : Fin 16, j.val = idx.toNat → s.mKnown[j] = true →
      exec (.rdm idx) s = .next { s with rsp := some ⟨.ok, s.m[j]⟩ }) ∧
    (∃ t v, Answers (.rdm idx) s t .ok v ∧ t = { s with rsp := some ⟨.ok, v⟩, free := t.free }) ∧
    (∀ data : Word, data ≠ 0 → RefusesWord (cmdWord 0x3 idx data) s)

/-- R152: `RDH` with `idx` in 0 to 7 answers `OK` with that word of `H` and changes nothing; before any `INIT` the
data is some word (none is claimed) and nothing changes but the model's free counter; with `idx` of 8 or more, or
`data` not 0, the word is refused, and so is the command itself. That `exec` itself answers an index of 8 or more so,
a word the decoder never passes on, is the model's reading (log 19). -/
def Obligations.RdhReadsRunningState : Prop :=
  ∀ (idx : BitVec 4) (s : State),
    (∀ j : Fin 8, j.val = idx.toNat → s.hKnown = true →
      exec (.rdh idx) s = .next { s with rsp := some ⟨.ok, s.h[j]⟩ }) ∧
    (idx.toNat < 8 →
      ∃ t v, Answers (.rdh idx) s t .ok v ∧ t = { s with rsp := some ⟨.ok, v⟩, free := t.free }) ∧
    (8 ≤ idx.toNat → exec (.rdh idx) s = .next { s with rsp := some ⟨.illegalCommand, 0⟩ }) ∧
    (∀ data : Word, 8 ≤ idx.toNat ∨ data ≠ 0 → RefusesWord (cmdWord 0x5 idx data) s)

/-- R154, R30, R31: what each status register reads, and that reading changes nothing; with `idx` of 8 or more, or
`data` not 0, the word is refused, and so is the command itself. That `exec` itself answers an index of 8 or more so,
a word the decoder never passes on, is the model's reading (log 19). -/
def Obligations.RdsrReadsStatusViews : Prop :=
  ∀ (idx : BitVec 4) (s : State),
    let nb := match s.pstate with
      | .armed => blockCount s.len.toNat
      | .done => blockCount s.len.toNat
      | .idle => 0
      | .error => 0
    let st := match s.pstate with
      | .idle => 0
      | .armed => 1
      | .done => 2
      | .error => 3
    (idx.toNat < 8 → ∃ v, exec (.rdsr idx) s = .next { s with rsp := some ⟨.ok, v⟩ } ∧
      (idx = 0 → v.toNat = st) ∧
      (idx = 1 → v.toNat = s.len.toNat % 2 ^ 32) ∧ (idx = 2 → v.toNat = s.len.toNat / 2 ^ 32) ∧
      (idx = 3 → v.toNat = s.blk.toNat % 2 ^ 32) ∧ (idx = 4 → v.toNat = s.blk.toNat / 2 ^ 32) ∧
      (idx = 5 → v.toNat = nb % 2 ^ 32) ∧ (idx = 6 → v.toNat = nb / 2 ^ 32) ∧
      (idx = 7 → v = 0x0000003a)) ∧
    (8 ≤ idx.toNat → exec (.rdsr idx) s = .next { s with rsp := some ⟨.illegalCommand, 0⟩ }) ∧
    (∀ data : Word, 8 ≤ idx.toNat ∨ data ≠ 0 → RefusesWord (cmdWord 0x8 idx data) s)

/-- R153: the digest as a number has `H[0]` most significant. -/
def Obligations.DigestIsMostSignificantWordFirst : Prop :=
  ∀ h : Vector Word 8,
    (digestOf h).toNat =
      h[0].toNat * 2 ^ 224 + h[1].toNat * 2 ^ 192 + h[2].toNat * 2 ^ 160 + h[3].toNat * 2 ^ 128 +
        h[4].toNat * 2 ^ 96 + h[5].toNat * 2 ^ 64 + h[6].toNat * 2 ^ 32 + h[7].toNat

/-! ### The whole machine -/

/-- R39 (R20, R21, R27 to R29, R34): which command may write which state. No command writes `MSG`, and none but
`COMPRESS` touches the hidden registers. -/
def Obligations.CommandsWriteOnlyTheirState : Prop :=
  ∀ (i : Instr) (s t : State), exec i s = .next t →
    (i ≠ .init → i ≠ .compress → sameRunningState s t) ∧
    ((∀ idx data, i ≠ .ldw idx data) → i ≠ .padblk → sameBlock s t) ∧
    (i ≠ .compress → sameHidden s t) ∧
    (loadsLength i = false → t.len = s.len) ∧
    (loadsLength i = false → i ≠ .padinit → i ≠ .padblk → t.blk = s.blk ∧ t.pstate = s.pstate) ∧
    sameMemory s t ∧ samePort s t

/-- R100: the complete transition table of `PSTATE` with its response codes, and the invariants, from every state at a
command boundary; illegal words leave `PSTATE` and `BLK`; reset forces `IDLE`. -/
def Obligations.PstateTransitionTable : Prop :=
  ∀ s : State, Inv s →
    (∀ (i : Instr) (t : State), exec i s = .next t →
      generatorOk t ∧
      (loadsLength i = true → t.pstate = .idle ∧ t.blk = 0 ∧ t.rsp = some ⟨.ok, 0⟩) ∧
      (i = .padinit → s.len.toNat ≤ 2 ^ 58 → s.pstate ≠ .error ∧ t.pstate = .armed ∧ t.rsp = some ⟨.ok, 0⟩) ∧
      (i = .padinit → 2 ^ 58 < s.len.toNat →
        s.pstate ≠ .armed ∧ s.pstate ≠ .done ∧ t.pstate = .error ∧ t.rsp = some ⟨.dataTooLarge, 0⟩) ∧
      (i = .padblk → s.pstate = .idle → t.pstate = .idle ∧ t.rsp = some ⟨.sequenceError, 0⟩) ∧
      (i = .padblk → s.pstate = .armed →
        t.pstate = (if s.blk.toNat + 1 < blockCount s.len.toNat then .armed else .done) ∧ t.rsp = some ⟨.ok, 0⟩) ∧
      (i = .padblk → s.pstate = .done → t.pstate = .done ∧ t.rsp = some ⟨.sequenceError, 0⟩) ∧
      (i = .padblk → s.pstate = .error → t.pstate = .error ∧ t.rsp = some ⟨.dataTooLarge, 0⟩) ∧
      (loadsLength i = false → i ≠ .padinit → i ≠ .padblk → t.pstate = s.pstate ∧ t.blk = s.blk)) ∧
    (∀ w : CmdWord, (¬ ∃ i, decode w = .ok i) →
      ∃ t, acceptWord w s = .next t ∧ t.pstate = s.pstate ∧ t.blk = s.blk) ∧
    (resetDevice s).pstate = .idle

/-- R37, R191: after reset the control state is as R37 gives it, the status views read as R37 says, no word of `H` or
`M` is known, nothing is pending, and with no command pending the device does nothing. What the words of `H`, `M`, `W`
and the working variables hold is the model's choice (log 1, log 4) and not claimed. -/
def Obligations.ResetLeavesControlStateAsSpecified : Prop :=
  (State.reset.pstate = .idle ∧ State.reset.len = 0 ∧ State.reset.blk = 0 ∧ State.reset.phase = .idle ∧
    State.reset.t = 0 ∧ State.reset.rsp = none ∧ State.reset.port = [] ∧ State.reset.hKnown = false ∧
    ∀ i : Fin 16, State.reset.mKnown[i] = false) ∧
  (∀ idx : BitVec 4, idx.toNat < 7 → ∃ t, Answers (.rdsr idx) State.reset t .ok 0) ∧
  (∃ t, Answers (.rdsr 7) State.reset t .ok 0x3a) ∧
  (∀ s : State, s.port = [] → step s = .next s)

/-- R190, R192: reset, between commands or cutting one short, gives no response and leaves the reset state: control
state as after reset, all of `H` and `M` unknown. `MSG` is the host's and stays (log 7). -/
def Obligations.ResetMoveLeavesResetState : Prop :=
  ∀ (s : State) (rest : List HostMove) (m : HostMove), s.port = m :: rest → (m = .reset ∨ ∃ w, m = .commandCut w) →
    ∃ t, step s = .next t ∧ t.pstate = .idle ∧ t.len = 0 ∧ t.blk = 0 ∧ t.phase = .idle ∧ t.t = 0 ∧ t.rsp = none ∧
      t.hKnown = false ∧ (∀ i : Fin 16, t.mKnown[i] = false) ∧ sameMemory s t ∧ t.port = rest

/-- R50 (log 8, log 9): the host's write of one byte of `MSG`: that address reads the byte, every other address reads
as before, the canonical form is kept, and the device's state is as it was. -/
def Obligations.HostStoreChangesOneByte : Prop :=
  ∀ (s : State) (a : BitVec 58) (b : Byte) (rest : List HostMove), s.msg.wf = true → s.port = .storeByte a b :: rest →
    ∃ t, step s = .next t ∧ t.msg.read a.toNat = b ∧ (∀ x, x ≠ a.toNat → t.msg.read x = s.msg.read x) ∧
      t.msg.wf = true ∧ t.port = rest ∧
      sameRunningState s t ∧ sameBlock s t ∧ sameHidden s t ∧ sameGenerator s t ∧ t.rsp = s.rsp

/-- The invariant holds after reset. -/
def Obligations.ResetMeetsInvariant : Prop := Inv State.reset

/-- R100, R24, R170: the invariant is kept by every step, whatever the host's move. -/
def Obligations.StepKeepsInvariant : Prop := ∀ s t : State, Inv s → step s = .next t → Inv t

/-- R71, R184: in every state at a command boundary the machine goes on, and every command word is answered. -/
def Obligations.EveryCommandWordIsAnswered : Prop :=
  ∀ s : State, Inv s →
    StepsOn s ∧
    (∀ (w : CmdWord) (rest : List HostMove), s.port = .command w :: rest →
      ∃ t r, step s = .next t ∧ t.rsp = some r ∧ t.port = rest)

/-- R144, R155: the loop of `PADBLK` and `COMPRESS`, any number of times within the message, folds the blocks in order
into the running state. That `hKnown` is true before and after is the model's own mark (log 2). -/
def Obligations.HashLoopFoldsBlocksInOrder : Prop :=
  ∀ (s : State) (n : Nat), s.hKnown = true → s.pstate = .armed → s.len.toNat ≤ 2 ^ 58 →
    s.blk.toNat < blockCount s.len.toNat → s.blk.toNat + n ≤ blockCount s.len.toNat →
    ∃ t, execAll (hashLoop n) s = .next t ∧
      t.h = chainFn s.h ((List.range n).map fun j => padBlock s.msg s.len.toNat (s.blk.toNat + j)) ∧ t.hKnown = true ∧
      t.blk.toNat = s.blk.toNat + n ∧ t.len = s.len ∧ t.msg = s.msg ∧
      t.pstate = (if s.blk.toNat + n = blockCount s.len.toNat then .done else .armed)

/-- R155, R144, R153: the host's sequence for a message of an accepted length, from every state: at its end `H` is the
chaining of the initial state over the message's padded blocks in order, the generator is `DONE` at block `N(L)`, and
`RDH` returns the words of `H`. Above the bound the sequence stops at `PADINIT` with `DATA_TOO_LARGE`, `H` and `M`
untouched. That `hKnown` is true at the end is the model's own mark (log 2). -/
def Obligations.HostSequenceYieldsTheDigest : Prop :=
  ∀ (s : State) (len : DWord),
    (len.toNat ≤ 2 ^ 58 →
      ∃ t, execAll (hashSequence len) s = .next t ∧
        t.h = chainFn initialState ((List.range (blockCount len.toNat)).map (padBlock s.msg len.toNat)) ∧
        t.hKnown = true ∧ t.len = len ∧ t.blk.toNat = blockCount len.toNat ∧ t.pstate = .done ∧ t.msg = s.msg ∧
        (∀ (idx : BitVec 4) (j : Fin 8), j.val = idx.toNat → ∃ u, Answers (.rdh idx) t u .ok t.h[j])) ∧
    (2 ^ 58 < len.toNat →
      ∃ t, execAll (ldlen len ++ [.padinit]) s = .next t ∧ t.rsp = some ⟨.dataTooLarge, 0⟩ ∧
        sameRunningState s t ∧ sameBlock s t)

/-- R156, R144: `INIT` and then, for each block, sixteen `LDW` and one `COMPRESS`, from every state: `H` is the
chaining of the initial state over the blocks in order, and the generator is as it was. The sixteen `LDW` come in the
order 0 to 15. That `hKnown` is true at the end is the model's own mark (log 2). -/
def Obligations.EngineAloneChainsHostBlocks : Prop :=
  ∀ (s : State) (bs : List (Vector Word 16)),
    ∃ t, execAll (.init :: engineSequence bs) s = .next t ∧ t.h = chainFn initialState bs ∧ t.hKnown = true ∧
      sameGenerator s t ∧ sameMemory s t

/-! ### The seed and fold steps and the round constants, word by word -/

/-- R133, R140: the seed step, each working variable by name from its word of `H`; the rounds begin, and nothing else changes.
Which variable takes which word is the spec's own reading (log 12). -/
def Obligations.SeedStepWordByWord : Prop :=
  ∀ s : State, s.phase = .seed →
    let u := engineStep s
    (u.vars.a = s.h[0] ∧ u.vars.b = s.h[1] ∧ u.vars.c = s.h[2] ∧ u.vars.d = s.h[3] ∧
      u.vars.e = s.h[4] ∧ u.vars.f = s.h[5] ∧ u.vars.g = s.h[6] ∧ u.vars.h = s.h[7]) ∧
    u.phase = .round ∧ u.t = 0 ∧ u.w = s.w ∧ sameRunningState s u ∧ sameBlock s u ∧ sameGenerator s u ∧ sameMemory s u ∧
      samePort s u

/-- R139, R140: the fold step, each word of `H` by index from itself and its working variable, modulo 2^32; the sequence ends,
and nothing else changes. Which variable is added to which word is the spec's own reading (log 12). -/
def Obligations.FoldStepWordByWord : Prop :=
  ∀ s : State, s.phase = .fold →
    let u := engineStep s
    (u.h[0].toNat = (s.h[0].toNat + s.vars.a.toNat) % 2 ^ 32 ∧
      u.h[1].toNat = (s.h[1].toNat + s.vars.b.toNat) % 2 ^ 32 ∧
      u.h[2].toNat = (s.h[2].toNat + s.vars.c.toNat) % 2 ^ 32 ∧
      u.h[3].toNat = (s.h[3].toNat + s.vars.d.toNat) % 2 ^ 32 ∧
      u.h[4].toNat = (s.h[4].toNat + s.vars.e.toNat) % 2 ^ 32 ∧
      u.h[5].toNat = (s.h[5].toNat + s.vars.f.toNat) % 2 ^ 32 ∧
      u.h[6].toNat = (s.h[6].toNat + s.vars.g.toNat) % 2 ^ 32 ∧
      u.h[7].toNat = (s.h[7].toNat + s.vars.h.toNat) % 2 ^ 32) ∧
    u.phase = .idle ∧ u.t = 0 ∧ u.vars = s.vars ∧ u.w = s.w ∧ sameBlock s u ∧ sameGenerator s u ∧ sameMemory s u ∧ samePort s u

/-- R25: the 64 round constants, each under its index (the spec's table, supplied there from general knowledge, log 12). -/
def Obligations.RoundConstantsAreTheSpecTable : Prop :=
  (roundConstants[0] = 0x428a2f98 ∧ roundConstants[1] = 0x71374491 ∧ roundConstants[2] = 0xb5c0fbcf ∧ roundConstants[3] = 0xe9b5dba5) ∧
  (roundConstants[4] = 0x3956c25b ∧ roundConstants[5] = 0x59f111f1 ∧ roundConstants[6] = 0x923f82a4 ∧ roundConstants[7] = 0xab1c5ed5) ∧
  (roundConstants[8] = 0xd807aa98 ∧ roundConstants[9] = 0x12835b01 ∧ roundConstants[10] = 0x243185be ∧ roundConstants[11] = 0x550c7dc3) ∧
  (roundConstants[12] = 0x72be5d74 ∧ roundConstants[13] = 0x80deb1fe ∧ roundConstants[14] = 0x9bdc06a7 ∧ roundConstants[15] = 0xc19bf174) ∧
  (roundConstants[16] = 0xe49b69c1 ∧ roundConstants[17] = 0xefbe4786 ∧ roundConstants[18] = 0x0fc19dc6 ∧ roundConstants[19] = 0x240ca1cc) ∧
  (roundConstants[20] = 0x2de92c6f ∧ roundConstants[21] = 0x4a7484aa ∧ roundConstants[22] = 0x5cb0a9dc ∧ roundConstants[23] = 0x76f988da) ∧
  (roundConstants[24] = 0x983e5152 ∧ roundConstants[25] = 0xa831c66d ∧ roundConstants[26] = 0xb00327c8 ∧ roundConstants[27] = 0xbf597fc7) ∧
  (roundConstants[28] = 0xc6e00bf3 ∧ roundConstants[29] = 0xd5a79147 ∧ roundConstants[30] = 0x06ca6351 ∧ roundConstants[31] = 0x14292967) ∧
  (roundConstants[32] = 0x27b70a85 ∧ roundConstants[33] = 0x2e1b2138 ∧ roundConstants[34] = 0x4d2c6dfc ∧ roundConstants[35] = 0x53380d13) ∧
  (roundConstants[36] = 0x650a7354 ∧ roundConstants[37] = 0x766a0abb ∧ roundConstants[38] = 0x81c2c92e ∧ roundConstants[39] = 0x92722c85) ∧
  (roundConstants[40] = 0xa2bfe8a1 ∧ roundConstants[41] = 0xa81a664b ∧ roundConstants[42] = 0xc24b8b70 ∧ roundConstants[43] = 0xc76c51a3) ∧
  (roundConstants[44] = 0xd192e819 ∧ roundConstants[45] = 0xd6990624 ∧ roundConstants[46] = 0xf40e3585 ∧ roundConstants[47] = 0x106aa070) ∧
  (roundConstants[48] = 0x19a4c116 ∧ roundConstants[49] = 0x1e376c08 ∧ roundConstants[50] = 0x2748774c ∧ roundConstants[51] = 0x34b0bcb5) ∧
  (roundConstants[52] = 0x391c0cb3 ∧ roundConstants[53] = 0x4ed8aa4a ∧ roundConstants[54] = 0x5b9cca4f ∧ roundConstants[55] = 0x682e6ff3) ∧
  (roundConstants[56] = 0x748f82ee ∧ roundConstants[57] = 0x78a5636f ∧ roundConstants[58] = 0x84c87814 ∧ roundConstants[59] = 0x8cc70208) ∧
  (roundConstants[60] = 0x90befffa ∧ roundConstants[61] = 0xa4506ceb ∧ roundConstants[62] = 0xbef9a3f7 ∧ roundConstants[63] = 0xc67178f2)
end

