-- ==== Sys2Proof/Laws/State.lean ====
section
/-! SUPPORT. One lemma per field per named update of State, true by rfl, so that no later proof unfolds an update.
`(rfl)` in parentheses keeps them out of `dsimp`: a definitional step across the 130 steps of `compressRun` is one the kernel
would have to evaluate. -/

namespace Sys2Proof.Machine

/-! ### The response (30_encoding.md R72) -/

@[simp] theorem respond_h (r : Response) (s : State) : (respond r s).h = s.h := (rfl)
@[simp] theorem respond_m (r : Response) (s : State) : (respond r s).m = s.m := (rfl)
@[simp] theorem respond_w (r : Response) (s : State) : (respond r s).w = s.w := (rfl)
@[simp] theorem respond_vars (r : Response) (s : State) : (respond r s).vars = s.vars := (rfl)
@[simp] theorem respond_phase (r : Response) (s : State) : (respond r s).phase = s.phase := (rfl)
@[simp] theorem respond_t (r : Response) (s : State) : (respond r s).t = s.t := (rfl)
@[simp] theorem respond_len (r : Response) (s : State) : (respond r s).len = s.len := (rfl)
@[simp] theorem respond_blk (r : Response) (s : State) : (respond r s).blk = s.blk := (rfl)
@[simp] theorem respond_pstate (r : Response) (s : State) : (respond r s).pstate = s.pstate := (rfl)
@[simp] theorem respond_msg (r : Response) (s : State) : (respond r s).msg = s.msg := (rfl)
@[simp] theorem respond_rsp (r : Response) (s : State) : (respond r s).rsp = some r := (rfl)
@[simp] theorem respond_port (r : Response) (s : State) : (respond r s).port = s.port := (rfl)
@[simp] theorem respond_hKnown (r : Response) (s : State) : (respond r s).hKnown = s.hKnown := (rfl)
@[simp] theorem respond_mKnown (r : Response) (s : State) : (respond r s).mKnown = s.mKnown := (rfl)
@[simp] theorem respond_free (r : Response) (s : State) : (respond r s).free = s.free := (rfl)

/-! ### An answer `OK` (00_scope.md R10) -/

@[simp] theorem respondOk_h (v : Word) (s : State) : (respondOk v s).h = s.h := (rfl)
@[simp] theorem respondOk_m (v : Word) (s : State) : (respondOk v s).m = s.m := (rfl)
@[simp] theorem respondOk_w (v : Word) (s : State) : (respondOk v s).w = s.w := (rfl)
@[simp] theorem respondOk_vars (v : Word) (s : State) : (respondOk v s).vars = s.vars := (rfl)
@[simp] theorem respondOk_phase (v : Word) (s : State) : (respondOk v s).phase = s.phase := (rfl)
@[simp] theorem respondOk_t (v : Word) (s : State) : (respondOk v s).t = s.t := (rfl)
@[simp] theorem respondOk_len (v : Word) (s : State) : (respondOk v s).len = s.len := (rfl)
@[simp] theorem respondOk_blk (v : Word) (s : State) : (respondOk v s).blk = s.blk := (rfl)
@[simp] theorem respondOk_pstate (v : Word) (s : State) : (respondOk v s).pstate = s.pstate := (rfl)
@[simp] theorem respondOk_msg (v : Word) (s : State) : (respondOk v s).msg = s.msg := (rfl)
@[simp] theorem respondOk_rsp (v : Word) (s : State) : (respondOk v s).rsp = some ⟨.ok, v⟩ := (rfl)
@[simp] theorem respondOk_port (v : Word) (s : State) : (respondOk v s).port = s.port := (rfl)
@[simp] theorem respondOk_hKnown (v : Word) (s : State) : (respondOk v s).hKnown = s.hKnown := (rfl)
@[simp] theorem respondOk_mKnown (v : Word) (s : State) : (respondOk v s).mKnown = s.mKnown := (rfl)
@[simp] theorem respondOk_free (v : Word) (s : State) : (respondOk v s).free = s.free := (rfl)

/-! ### An error code (R10) -/

@[simp] theorem raiseCode_h (c : RspCode) (s : State) : (raiseCode c s).h = s.h := (rfl)
@[simp] theorem raiseCode_m (c : RspCode) (s : State) : (raiseCode c s).m = s.m := (rfl)
@[simp] theorem raiseCode_w (c : RspCode) (s : State) : (raiseCode c s).w = s.w := (rfl)
@[simp] theorem raiseCode_vars (c : RspCode) (s : State) : (raiseCode c s).vars = s.vars := (rfl)
@[simp] theorem raiseCode_phase (c : RspCode) (s : State) : (raiseCode c s).phase = s.phase := (rfl)
@[simp] theorem raiseCode_t (c : RspCode) (s : State) : (raiseCode c s).t = s.t := (rfl)
@[simp] theorem raiseCode_len (c : RspCode) (s : State) : (raiseCode c s).len = s.len := (rfl)
@[simp] theorem raiseCode_blk (c : RspCode) (s : State) : (raiseCode c s).blk = s.blk := (rfl)
@[simp] theorem raiseCode_pstate (c : RspCode) (s : State) : (raiseCode c s).pstate = s.pstate := (rfl)
@[simp] theorem raiseCode_msg (c : RspCode) (s : State) : (raiseCode c s).msg = s.msg := (rfl)
@[simp] theorem raiseCode_rsp (c : RspCode) (s : State) : (raiseCode c s).rsp = some ⟨c, 0⟩ := (rfl)
@[simp] theorem raiseCode_port (c : RspCode) (s : State) : (raiseCode c s).port = s.port := (rfl)
@[simp] theorem raiseCode_hKnown (c : RspCode) (s : State) : (raiseCode c s).hKnown = s.hKnown := (rfl)
@[simp] theorem raiseCode_mKnown (c : RspCode) (s : State) : (raiseCode c s).mKnown = s.mKnown := (rfl)
@[simp] theorem raiseCode_free (c : RspCode) (s : State) : (raiseCode c s).free = s.free := (rfl)

/-! ### `H` made unspecified (10_state.md R38) -/

@[simp] theorem dropRunningState_h (s : State) : (dropRunningState s).h = freeWords 8 s.free := (rfl)
@[simp] theorem dropRunningState_m (s : State) : (dropRunningState s).m = s.m := (rfl)
@[simp] theorem dropRunningState_w (s : State) : (dropRunningState s).w = s.w := (rfl)
@[simp] theorem dropRunningState_vars (s : State) : (dropRunningState s).vars = s.vars := (rfl)
@[simp] theorem dropRunningState_phase (s : State) : (dropRunningState s).phase = s.phase := (rfl)
@[simp] theorem dropRunningState_t (s : State) : (dropRunningState s).t = s.t := (rfl)
@[simp] theorem dropRunningState_len (s : State) : (dropRunningState s).len = s.len := (rfl)
@[simp] theorem dropRunningState_blk (s : State) : (dropRunningState s).blk = s.blk := (rfl)
@[simp] theorem dropRunningState_pstate (s : State) : (dropRunningState s).pstate = s.pstate := (rfl)
@[simp] theorem dropRunningState_msg (s : State) : (dropRunningState s).msg = s.msg := (rfl)
@[simp] theorem dropRunningState_rsp (s : State) : (dropRunningState s).rsp = s.rsp := (rfl)
@[simp] theorem dropRunningState_port (s : State) : (dropRunningState s).port = s.port := (rfl)
@[simp] theorem dropRunningState_hKnown (s : State) : (dropRunningState s).hKnown = false := (rfl)
@[simp] theorem dropRunningState_mKnown (s : State) : (dropRunningState s).mKnown = s.mKnown := (rfl)
@[simp] theorem dropRunningState_free (s : State) : (dropRunningState s).free = s.free + 8 := (rfl)

/-! ### `M` made unspecified (R37) -/

@[simp] theorem dropBlock_h (s : State) : (dropBlock s).h = s.h := (rfl)
@[simp] theorem dropBlock_m (s : State) : (dropBlock s).m = freeWords 16 s.free := (rfl)
@[simp] theorem dropBlock_w (s : State) : (dropBlock s).w = s.w := (rfl)
@[simp] theorem dropBlock_vars (s : State) : (dropBlock s).vars = s.vars := (rfl)
@[simp] theorem dropBlock_phase (s : State) : (dropBlock s).phase = s.phase := (rfl)
@[simp] theorem dropBlock_t (s : State) : (dropBlock s).t = s.t := (rfl)
@[simp] theorem dropBlock_len (s : State) : (dropBlock s).len = s.len := (rfl)
@[simp] theorem dropBlock_blk (s : State) : (dropBlock s).blk = s.blk := (rfl)
@[simp] theorem dropBlock_pstate (s : State) : (dropBlock s).pstate = s.pstate := (rfl)
@[simp] theorem dropBlock_msg (s : State) : (dropBlock s).msg = s.msg := (rfl)
@[simp] theorem dropBlock_rsp (s : State) : (dropBlock s).rsp = s.rsp := (rfl)
@[simp] theorem dropBlock_port (s : State) : (dropBlock s).port = s.port := (rfl)
@[simp] theorem dropBlock_hKnown (s : State) : (dropBlock s).hKnown = s.hKnown := (rfl)
@[simp] theorem dropBlock_mKnown (s : State) : (dropBlock s).mKnown = Vector.replicate 16 false := (rfl)
@[simp] theorem dropBlock_free (s : State) : (dropBlock s).free = s.free + 16 := (rfl)

/-! ### The hidden registers made unspecified (R36) -/

@[simp] theorem dropHidden_h (s : State) : (dropHidden s).h = s.h := (rfl)
@[simp] theorem dropHidden_m (s : State) : (dropHidden s).m = s.m := (rfl)
@[simp] theorem dropHidden_w (s : State) : (dropHidden s).w = freeWords 64 s.free := (rfl)
@[simp] theorem dropHidden_vars (s : State) : (dropHidden s).vars = freeVars (s.free + 64) := (rfl)
@[simp] theorem dropHidden_phase (s : State) : (dropHidden s).phase = s.phase := (rfl)
@[simp] theorem dropHidden_t (s : State) : (dropHidden s).t = s.t := (rfl)
@[simp] theorem dropHidden_len (s : State) : (dropHidden s).len = s.len := (rfl)
@[simp] theorem dropHidden_blk (s : State) : (dropHidden s).blk = s.blk := (rfl)
@[simp] theorem dropHidden_pstate (s : State) : (dropHidden s).pstate = s.pstate := (rfl)
@[simp] theorem dropHidden_msg (s : State) : (dropHidden s).msg = s.msg := (rfl)
@[simp] theorem dropHidden_rsp (s : State) : (dropHidden s).rsp = s.rsp := (rfl)
@[simp] theorem dropHidden_port (s : State) : (dropHidden s).port = s.port := (rfl)
@[simp] theorem dropHidden_hKnown (s : State) : (dropHidden s).hKnown = s.hKnown := (rfl)
@[simp] theorem dropHidden_mKnown (s : State) : (dropHidden s).mKnown = s.mKnown := (rfl)
@[simp] theorem dropHidden_free (s : State) : (dropHidden s).free = s.free + 72 := (rfl)

/-! ### All of `H` written (R20) -/

@[simp] theorem writeRunningState_h (v : Vector Word 8) (s : State) : (writeRunningState v s).h = v := (rfl)
@[simp] theorem writeRunningState_m (v : Vector Word 8) (s : State) : (writeRunningState v s).m = s.m := (rfl)
@[simp] theorem writeRunningState_w (v : Vector Word 8) (s : State) : (writeRunningState v s).w = s.w := (rfl)
@[simp] theorem writeRunningState_vars (v : Vector Word 8) (s : State) : (writeRunningState v s).vars = s.vars := (rfl)
@[simp] theorem writeRunningState_phase (v : Vector Word 8) (s : State) : (writeRunningState v s).phase = s.phase := (rfl)
@[simp] theorem writeRunningState_t (v : Vector Word 8) (s : State) : (writeRunningState v s).t = s.t := (rfl)
@[simp] theorem writeRunningState_len (v : Vector Word 8) (s : State) : (writeRunningState v s).len = s.len := (rfl)
@[simp] theorem writeRunningState_blk (v : Vector Word 8) (s : State) : (writeRunningState v s).blk = s.blk := (rfl)
@[simp] theorem writeRunningState_pstate (v : Vector Word 8) (s : State) : (writeRunningState v s).pstate = s.pstate := (rfl)
@[simp] theorem writeRunningState_msg (v : Vector Word 8) (s : State) : (writeRunningState v s).msg = s.msg := (rfl)
@[simp] theorem writeRunningState_rsp (v : Vector Word 8) (s : State) : (writeRunningState v s).rsp = s.rsp := (rfl)
@[simp] theorem writeRunningState_port (v : Vector Word 8) (s : State) : (writeRunningState v s).port = s.port := (rfl)
@[simp] theorem writeRunningState_hKnown (v : Vector Word 8) (s : State) : (writeRunningState v s).hKnown = true := (rfl)
@[simp] theorem writeRunningState_mKnown (v : Vector Word 8) (s : State) : (writeRunningState v s).mKnown = s.mKnown := (rfl)
@[simp] theorem writeRunningState_free (v : Vector Word 8) (s : State) : (writeRunningState v s).free = s.free := (rfl)

/-! ### One word of `M` written (R21) -/

@[simp] theorem writeBlockWord_h (i : Fin 16) (v : Word) (s : State) : (writeBlockWord i v s).h = s.h := (rfl)
@[simp] theorem writeBlockWord_m (i : Fin 16) (v : Word) (s : State) : (writeBlockWord i v s).m = s.m.set i v := (rfl)
@[simp] theorem writeBlockWord_w (i : Fin 16) (v : Word) (s : State) : (writeBlockWord i v s).w = s.w := (rfl)
@[simp] theorem writeBlockWord_vars (i : Fin 16) (v : Word) (s : State) : (writeBlockWord i v s).vars = s.vars := (rfl)
@[simp] theorem writeBlockWord_phase (i : Fin 16) (v : Word) (s : State) : (writeBlockWord i v s).phase = s.phase := (rfl)
@[simp] theorem writeBlockWord_t (i : Fin 16) (v : Word) (s : State) : (writeBlockWord i v s).t = s.t := (rfl)
@[simp] theorem writeBlockWord_len (i : Fin 16) (v : Word) (s : State) : (writeBlockWord i v s).len = s.len := (rfl)
@[simp] theorem writeBlockWord_blk (i : Fin 16) (v : Word) (s : State) : (writeBlockWord i v s).blk = s.blk := (rfl)
@[simp] theorem writeBlockWord_pstate (i : Fin 16) (v : Word) (s : State) : (writeBlockWord i v s).pstate = s.pstate := (rfl)
@[simp] theorem writeBlockWord_msg (i : Fin 16) (v : Word) (s : State) : (writeBlockWord i v s).msg = s.msg := (rfl)
@[simp] theorem writeBlockWord_rsp (i : Fin 16) (v : Word) (s : State) : (writeBlockWord i v s).rsp = s.rsp := (rfl)
@[simp] theorem writeBlockWord_port (i : Fin 16) (v : Word) (s : State) : (writeBlockWord i v s).port = s.port := (rfl)
@[simp] theorem writeBlockWord_hKnown (i : Fin 16) (v : Word) (s : State) : (writeBlockWord i v s).hKnown = s.hKnown := (rfl)
@[simp] theorem writeBlockWord_mKnown (i : Fin 16) (v : Word) (s : State) : (writeBlockWord i v s).mKnown = s.mKnown.set i true := (rfl)
@[simp] theorem writeBlockWord_free (i : Fin 16) (v : Word) (s : State) : (writeBlockWord i v s).free = s.free := (rfl)

/-! ### All of `M` written (R21) -/

@[simp] theorem writeBlock_h (v : Vector Word 16) (s : State) : (writeBlock v s).h = s.h := (rfl)
@[simp] theorem writeBlock_m (v : Vector Word 16) (s : State) : (writeBlock v s).m = v := (rfl)
@[simp] theorem writeBlock_w (v : Vector Word 16) (s : State) : (writeBlock v s).w = s.w := (rfl)
@[simp] theorem writeBlock_vars (v : Vector Word 16) (s : State) : (writeBlock v s).vars = s.vars := (rfl)
@[simp] theorem writeBlock_phase (v : Vector Word 16) (s : State) : (writeBlock v s).phase = s.phase := (rfl)
@[simp] theorem writeBlock_t (v : Vector Word 16) (s : State) : (writeBlock v s).t = s.t := (rfl)
@[simp] theorem writeBlock_len (v : Vector Word 16) (s : State) : (writeBlock v s).len = s.len := (rfl)
@[simp] theorem writeBlock_blk (v : Vector Word 16) (s : State) : (writeBlock v s).blk = s.blk := (rfl)
@[simp] theorem writeBlock_pstate (v : Vector Word 16) (s : State) : (writeBlock v s).pstate = s.pstate := (rfl)
@[simp] theorem writeBlock_msg (v : Vector Word 16) (s : State) : (writeBlock v s).msg = s.msg := (rfl)
@[simp] theorem writeBlock_rsp (v : Vector Word 16) (s : State) : (writeBlock v s).rsp = s.rsp := (rfl)
@[simp] theorem writeBlock_port (v : Vector Word 16) (s : State) : (writeBlock v s).port = s.port := (rfl)
@[simp] theorem writeBlock_hKnown (v : Vector Word 16) (s : State) : (writeBlock v s).hKnown = s.hKnown := (rfl)
@[simp] theorem writeBlock_mKnown (v : Vector Word 16) (s : State) : (writeBlock v s).mKnown = Vector.replicate 16 true := (rfl)
@[simp] theorem writeBlock_free (v : Vector Word 16) (s : State) : (writeBlock v s).free = s.free := (rfl)

/-! ### A free value used up (R38) -/

@[simp] theorem drawWord_h (s : State) : (drawWord s).2.h = s.h := (rfl)
@[simp] theorem drawWord_m (s : State) : (drawWord s).2.m = s.m := (rfl)
@[simp] theorem drawWord_w (s : State) : (drawWord s).2.w = s.w := (rfl)
@[simp] theorem drawWord_vars (s : State) : (drawWord s).2.vars = s.vars := (rfl)
@[simp] theorem drawWord_phase (s : State) : (drawWord s).2.phase = s.phase := (rfl)
@[simp] theorem drawWord_t (s : State) : (drawWord s).2.t = s.t := (rfl)
@[simp] theorem drawWord_len (s : State) : (drawWord s).2.len = s.len := (rfl)
@[simp] theorem drawWord_blk (s : State) : (drawWord s).2.blk = s.blk := (rfl)
@[simp] theorem drawWord_pstate (s : State) : (drawWord s).2.pstate = s.pstate := (rfl)
@[simp] theorem drawWord_msg (s : State) : (drawWord s).2.msg = s.msg := (rfl)
@[simp] theorem drawWord_rsp (s : State) : (drawWord s).2.rsp = s.rsp := (rfl)
@[simp] theorem drawWord_port (s : State) : (drawWord s).2.port = s.port := (rfl)
@[simp] theorem drawWord_hKnown (s : State) : (drawWord s).2.hKnown = s.hKnown := (rfl)
@[simp] theorem drawWord_mKnown (s : State) : (drawWord s).2.mKnown = s.mKnown := (rfl)
@[simp] theorem drawWord_free (s : State) : (drawWord s).2.free = s.free + 1 := (rfl)
@[simp] theorem drawWord_word (s : State) : (drawWord s).1 = Config.freeWord s.free := (rfl)

/-! ### The generator disarmed (40_padding_generator.md R96) -/

@[simp] theorem disarm_h (s : State) : (disarm s).h = s.h := (rfl)
@[simp] theorem disarm_m (s : State) : (disarm s).m = s.m := (rfl)
@[simp] theorem disarm_w (s : State) : (disarm s).w = s.w := (rfl)
@[simp] theorem disarm_vars (s : State) : (disarm s).vars = s.vars := (rfl)
@[simp] theorem disarm_phase (s : State) : (disarm s).phase = s.phase := (rfl)
@[simp] theorem disarm_t (s : State) : (disarm s).t = s.t := (rfl)
@[simp] theorem disarm_len (s : State) : (disarm s).len = s.len := (rfl)
@[simp] theorem disarm_blk (s : State) : (disarm s).blk = 0 := (rfl)
@[simp] theorem disarm_pstate (s : State) : (disarm s).pstate = .idle := (rfl)
@[simp] theorem disarm_msg (s : State) : (disarm s).msg = s.msg := (rfl)
@[simp] theorem disarm_rsp (s : State) : (disarm s).rsp = s.rsp := (rfl)
@[simp] theorem disarm_port (s : State) : (disarm s).port = s.port := (rfl)
@[simp] theorem disarm_hKnown (s : State) : (disarm s).hKnown = s.hKnown := (rfl)
@[simp] theorem disarm_mKnown (s : State) : (disarm s).mKnown = s.mKnown := (rfl)
@[simp] theorem disarm_free (s : State) : (disarm s).free = s.free := (rfl)

/-! ### The generator armed (R98) -/

@[simp] theorem arm_h (s : State) : (arm s).h = s.h := (rfl)
@[simp] theorem arm_m (s : State) : (arm s).m = s.m := (rfl)
@[simp] theorem arm_w (s : State) : (arm s).w = s.w := (rfl)
@[simp] theorem arm_vars (s : State) : (arm s).vars = s.vars := (rfl)
@[simp] theorem arm_phase (s : State) : (arm s).phase = s.phase := (rfl)
@[simp] theorem arm_t (s : State) : (arm s).t = s.t := (rfl)
@[simp] theorem arm_len (s : State) : (arm s).len = s.len := (rfl)
@[simp] theorem arm_blk (s : State) : (arm s).blk = 0 := (rfl)
@[simp] theorem arm_pstate (s : State) : (arm s).pstate = .armed := (rfl)
@[simp] theorem arm_msg (s : State) : (arm s).msg = s.msg := (rfl)
@[simp] theorem arm_rsp (s : State) : (arm s).rsp = s.rsp := (rfl)
@[simp] theorem arm_port (s : State) : (arm s).port = s.port := (rfl)
@[simp] theorem arm_hKnown (s : State) : (arm s).hKnown = s.hKnown := (rfl)
@[simp] theorem arm_mKnown (s : State) : (arm s).mKnown = s.mKnown := (rfl)
@[simp] theorem arm_free (s : State) : (arm s).free = s.free := (rfl)

/-! ### The generator in `ERROR` (R98) -/

@[simp] theorem enterError_h (s : State) : (enterError s).h = s.h := (rfl)
@[simp] theorem enterError_m (s : State) : (enterError s).m = s.m := (rfl)
@[simp] theorem enterError_w (s : State) : (enterError s).w = s.w := (rfl)
@[simp] theorem enterError_vars (s : State) : (enterError s).vars = s.vars := (rfl)
@[simp] theorem enterError_phase (s : State) : (enterError s).phase = s.phase := (rfl)
@[simp] theorem enterError_t (s : State) : (enterError s).t = s.t := (rfl)
@[simp] theorem enterError_len (s : State) : (enterError s).len = s.len := (rfl)
@[simp] theorem enterError_blk (s : State) : (enterError s).blk = 0 := (rfl)
@[simp] theorem enterError_pstate (s : State) : (enterError s).pstate = .error := (rfl)
@[simp] theorem enterError_msg (s : State) : (enterError s).msg = s.msg := (rfl)
@[simp] theorem enterError_rsp (s : State) : (enterError s).rsp = s.rsp := (rfl)
@[simp] theorem enterError_port (s : State) : (enterError s).port = s.port := (rfl)
@[simp] theorem enterError_hKnown (s : State) : (enterError s).hKnown = s.hKnown := (rfl)
@[simp] theorem enterError_mKnown (s : State) : (enterError s).mKnown = s.mKnown := (rfl)
@[simp] theorem enterError_free (s : State) : (enterError s).free = s.free := (rfl)

/-! ### `BLK` moved on (R99) -/

@[simp] theorem advanceBlock_h (s : State) : (advanceBlock s).h = s.h := (rfl)
@[simp] theorem advanceBlock_m (s : State) : (advanceBlock s).m = s.m := (rfl)
@[simp] theorem advanceBlock_w (s : State) : (advanceBlock s).w = s.w := (rfl)
@[simp] theorem advanceBlock_vars (s : State) : (advanceBlock s).vars = s.vars := (rfl)
@[simp] theorem advanceBlock_phase (s : State) : (advanceBlock s).phase = s.phase := (rfl)
@[simp] theorem advanceBlock_t (s : State) : (advanceBlock s).t = s.t := (rfl)
@[simp] theorem advanceBlock_len (s : State) : (advanceBlock s).len = s.len := (rfl)
@[simp] theorem advanceBlock_blk (s : State) : (advanceBlock s).blk = s.blk + 1 := (rfl)
@[simp] theorem advanceBlock_pstate (s : State) : (advanceBlock s).pstate = if (s.blk + 1).toNat = blockCount s.len.toNat then .done else s.pstate := (rfl)
@[simp] theorem advanceBlock_msg (s : State) : (advanceBlock s).msg = s.msg := (rfl)
@[simp] theorem advanceBlock_rsp (s : State) : (advanceBlock s).rsp = s.rsp := (rfl)
@[simp] theorem advanceBlock_port (s : State) : (advanceBlock s).port = s.port := (rfl)
@[simp] theorem advanceBlock_hKnown (s : State) : (advanceBlock s).hKnown = s.hKnown := (rfl)
@[simp] theorem advanceBlock_mKnown (s : State) : (advanceBlock s).mKnown = s.mKnown := (rfl)
@[simp] theorem advanceBlock_free (s : State) : (advanceBlock s).free = s.free := (rfl)

/-! ### The sequencer started (42_compression_engine.md R140) -/

@[simp] theorem engineStart_h (s : State) : (engineStart s).h = s.h := (rfl)
@[simp] theorem engineStart_m (s : State) : (engineStart s).m = s.m := (rfl)
@[simp] theorem engineStart_w (s : State) : (engineStart s).w = s.w := (rfl)
@[simp] theorem engineStart_vars (s : State) : (engineStart s).vars = s.vars := (rfl)
@[simp] theorem engineStart_phase (s : State) : (engineStart s).phase = .sched := (rfl)
@[simp] theorem engineStart_t (s : State) : (engineStart s).t = 0 := (rfl)
@[simp] theorem engineStart_len (s : State) : (engineStart s).len = s.len := (rfl)
@[simp] theorem engineStart_blk (s : State) : (engineStart s).blk = s.blk := (rfl)
@[simp] theorem engineStart_pstate (s : State) : (engineStart s).pstate = s.pstate := (rfl)
@[simp] theorem engineStart_msg (s : State) : (engineStart s).msg = s.msg := (rfl)
@[simp] theorem engineStart_rsp (s : State) : (engineStart s).rsp = s.rsp := (rfl)
@[simp] theorem engineStart_port (s : State) : (engineStart s).port = s.port := (rfl)
@[simp] theorem engineStart_hKnown (s : State) : (engineStart s).hKnown = s.hKnown := (rfl)
@[simp] theorem engineStart_mKnown (s : State) : (engineStart s).mKnown = s.mKnown := (rfl)
@[simp] theorem engineStart_free (s : State) : (engineStart s).free = s.free := (rfl)

/-! ### The state after reset (R37) -/

@[simp] theorem reset_h : State.reset.h = Vector.replicate 8 0 := (rfl)
@[simp] theorem reset_m : State.reset.m = Vector.replicate 16 0 := (rfl)
@[simp] theorem reset_w : State.reset.w = Vector.replicate 64 0 := (rfl)
@[simp] theorem reset_vars : State.reset.vars = ⟨0, 0, 0, 0, 0, 0, 0, 0⟩ := (rfl)
@[simp] theorem reset_phase : State.reset.phase = .idle := (rfl)
@[simp] theorem reset_t : State.reset.t = 0 := (rfl)
@[simp] theorem reset_len : State.reset.len = 0 := (rfl)
@[simp] theorem reset_blk : State.reset.blk = 0 := (rfl)
@[simp] theorem reset_pstate : State.reset.pstate = .idle := (rfl)
@[simp] theorem reset_msg : State.reset.msg = [] := (rfl)
@[simp] theorem reset_rsp : State.reset.rsp = none := (rfl)
@[simp] theorem reset_port : State.reset.port = [] := (rfl)
@[simp] theorem reset_hKnown : State.reset.hKnown = false := (rfl)
@[simp] theorem reset_mKnown : State.reset.mKnown = Vector.replicate 16 false := (rfl)
@[simp] theorem reset_free : State.reset.free = 0 := (rfl)

end Sys2Proof.Machine
end

