-- ==== Sys2Proof/Laws/Engine.lean ====
section
/-! SUPPORT. What one internal step of `COMPRESS` can do, what a run of them leaves alone, and how runs compose
(42_compression_engine.md R140). -/

namespace Sys2Proof.Machine

/-- `T` moves on: only `PHASE` and `T` change. -/
theorem advanceT_eq (p : Phase) (s : State) :
    advanceT p s = { s with phase := (advanceT p s).phase, t := (advanceT p s).t } := by
  unfold advanceT; split <;> rfl

/-- One internal step changes `H`, `W`, the working variables, `PHASE` and `T`, and nothing else. -/
theorem engineStep_eq (s : State) :
    engineStep s = { s with
      h := (engineStep s).h, w := (engineStep s).w, vars := (engineStep s).vars
      phase := (engineStep s).phase, t := (engineStep s).t } := by
  unfold engineStep
  split
  · rfl
  · rw [advanceT_eq]
  · rfl
  · rw [advanceT_eq]
  · rfl

/-- A schedule step before the last (R140). -/
theorem engineStep_sched {s : State} (hp : s.phase = .sched) (ht : s.t ≠ 63) :
    engineStep s = { s with w := s.w.set s.t (scheduleStepWord s), t := s.t + 1 } := by
  unfold engineStep; rw [hp]; simp only [advanceT]; rw [if_neg ht]

/-- The last schedule step (R140). -/
theorem engineStep_sched_last {s : State} (hp : s.phase = .sched) (ht : s.t = 63) :
    engineStep s = { s with w := s.w.set s.t (scheduleStepWord s), phase := .seed, t := 0 } := by
  unfold engineStep; rw [hp]; simp only [advanceT]; rw [if_pos ht]

/-- The seed step (R140). -/
theorem engineStep_seed {s : State} (hp : s.phase = .seed) :
    engineStep s = { s with vars := seedVars s.h, phase := .round, t := 0 } := by
  unfold engineStep; rw [hp]

/-- A round before the last (R140). -/
theorem engineStep_round {s : State} (hp : s.phase = .round) (ht : s.t ≠ 63) :
    engineStep s = { s with vars := roundUpdate s.vars roundConstants[s.t] s.w[s.t], t := s.t + 1 } := by
  unfold engineStep; rw [hp]; simp only [advanceT]; rw [if_neg ht]

/-- The last round (R140). -/
theorem engineStep_round_last {s : State} (hp : s.phase = .round) (ht : s.t = 63) :
    engineStep s = { s with
      vars := roundUpdate s.vars roundConstants[s.t] s.w[s.t], phase := .fold, t := 0 } := by
  unfold engineStep; rw [hp]; simp only [advanceT]; rw [if_pos ht]

/-- The fold step (R140). -/
theorem engineStep_fold {s : State} (hp : s.phase = .fold) :
    engineStep s = { s with h := foldVars s.h s.vars, phase := .idle, t := 0 } := by
  unfold engineStep; rw [hp]

/-- What one internal step keeps, any number of them keeps. -/
theorem engineRun_keeps {α : Type} (f : State → α) (hf : ∀ s, f (engineStep s) = f s) (n : Nat) (s : State) :
    f (engineRun n s) = f s := by
  induction n generalizing s with
  | zero => rfl
  | succ n ih => exact (ih (engineStep s)).trans (hf s)

/-- Runs compose. -/
theorem engineRun_add (m n : Nat) (s : State) : engineRun (m + n) s = engineRun n (engineRun m s) := by
  induction m generalizing s with
  | zero => simp [engineRun]
  | succ m ih => rw [Nat.succ_add]; simp only [engineRun]; exact ih _

/-- A run of one more step ends with that step. -/
theorem engineRun_succ (n : Nat) (s : State) : engineRun (n + 1) s = engineStep (engineRun n s) := by
  rw [engineRun_add]; rfl

@[simp] theorem engineStep_m (s : State) : (engineStep s).m = s.m := by rw [engineStep_eq]
@[simp] theorem engineStep_len (s : State) : (engineStep s).len = s.len := by rw [engineStep_eq]
@[simp] theorem engineStep_blk (s : State) : (engineStep s).blk = s.blk := by rw [engineStep_eq]
@[simp] theorem engineStep_pstate (s : State) : (engineStep s).pstate = s.pstate := by rw [engineStep_eq]
@[simp] theorem engineStep_msg (s : State) : (engineStep s).msg = s.msg := by rw [engineStep_eq]
@[simp] theorem engineStep_rsp (s : State) : (engineStep s).rsp = s.rsp := by rw [engineStep_eq]
@[simp] theorem engineStep_port (s : State) : (engineStep s).port = s.port := by rw [engineStep_eq]
@[simp] theorem engineStep_hKnown (s : State) : (engineStep s).hKnown = s.hKnown := by rw [engineStep_eq]
@[simp] theorem engineStep_mKnown (s : State) : (engineStep s).mKnown = s.mKnown := by rw [engineStep_eq]
@[simp] theorem engineStep_free (s : State) : (engineStep s).free = s.free := by rw [engineStep_eq]

@[simp] theorem engineRun_m (n : Nat) (s : State) : (engineRun n s).m = s.m :=
  engineRun_keeps (·.m) engineStep_m n s
@[simp] theorem engineRun_len (n : Nat) (s : State) : (engineRun n s).len = s.len :=
  engineRun_keeps (·.len) engineStep_len n s
@[simp] theorem engineRun_blk (n : Nat) (s : State) : (engineRun n s).blk = s.blk :=
  engineRun_keeps (·.blk) engineStep_blk n s
@[simp] theorem engineRun_pstate (n : Nat) (s : State) : (engineRun n s).pstate = s.pstate :=
  engineRun_keeps (·.pstate) engineStep_pstate n s
@[simp] theorem engineRun_msg (n : Nat) (s : State) : (engineRun n s).msg = s.msg :=
  engineRun_keeps (·.msg) engineStep_msg n s
@[simp] theorem engineRun_rsp (n : Nat) (s : State) : (engineRun n s).rsp = s.rsp :=
  engineRun_keeps (·.rsp) engineStep_rsp n s
@[simp] theorem engineRun_port (n : Nat) (s : State) : (engineRun n s).port = s.port :=
  engineRun_keeps (·.port) engineStep_port n s
@[simp] theorem engineRun_hKnown (n : Nat) (s : State) : (engineRun n s).hKnown = s.hKnown :=
  engineRun_keeps (·.hKnown) engineStep_hKnown n s
@[simp] theorem engineRun_mKnown (n : Nat) (s : State) : (engineRun n s).mKnown = s.mKnown :=
  engineRun_keeps (·.mKnown) engineStep_mKnown n s
@[simp] theorem engineRun_free (n : Nat) (s : State) : (engineRun n s).free = s.free :=
  engineRun_keeps (·.free) engineStep_free n s

/-- The sequence of one `COMPRESS` is 130 internal steps from the start of the schedule phase (R140). -/
theorem compressRun_eq (s : State) : compressRun s = engineRun 130 (engineStart s) := by
  unfold compressRun; rfl

/-- What every internal step and the start keep, the whole sequence keeps. -/
theorem compressRun_keeps {α : Type} (f : State → α) (hf : ∀ s, f (engineStep s) = f s) (h0 : ∀ s, f (engineStart s) = f s)
    (s : State) : f (compressRun s) = f s := by
  unfold compressRun; exact (engineRun_keeps f hf engineSteps _).trans (h0 s)

@[simp] theorem compressRun_m (s : State) : (compressRun s).m = s.m :=
  compressRun_keeps (·.m) engineStep_m (fun _ => rfl) s
@[simp] theorem compressRun_len (s : State) : (compressRun s).len = s.len :=
  compressRun_keeps (·.len) engineStep_len (fun _ => rfl) s
@[simp] theorem compressRun_blk (s : State) : (compressRun s).blk = s.blk :=
  compressRun_keeps (·.blk) engineStep_blk (fun _ => rfl) s
@[simp] theorem compressRun_pstate (s : State) : (compressRun s).pstate = s.pstate :=
  compressRun_keeps (·.pstate) engineStep_pstate (fun _ => rfl) s
@[simp] theorem compressRun_msg (s : State) : (compressRun s).msg = s.msg :=
  compressRun_keeps (·.msg) engineStep_msg (fun _ => rfl) s
@[simp] theorem compressRun_rsp (s : State) : (compressRun s).rsp = s.rsp :=
  compressRun_keeps (·.rsp) engineStep_rsp (fun _ => rfl) s
@[simp] theorem compressRun_port (s : State) : (compressRun s).port = s.port :=
  compressRun_keeps (·.port) engineStep_port (fun _ => rfl) s
@[simp] theorem compressRun_hKnown (s : State) : (compressRun s).hKnown = s.hKnown :=
  compressRun_keeps (·.hKnown) engineStep_hKnown (fun _ => rfl) s
@[simp] theorem compressRun_mKnown (s : State) : (compressRun s).mKnown = s.mKnown :=
  compressRun_keeps (·.mKnown) engineStep_mKnown (fun _ => rfl) s
@[simp] theorem compressRun_free (s : State) : (compressRun s).free = s.free :=
  compressRun_keeps (·.free) engineStep_free (fun _ => rfl) s

/-- The schedule list of `n` words has `n` words. -/
@[simp] theorem scheduleList_length (b : Vector Word 16) (n : Nat) : (scheduleList b n).length = n := by
  induction n with
  | zero => rfl
  | succ n ih => simp [scheduleList, ih]

/-- A longer schedule list keeps the words of a shorter one. -/
theorem scheduleList_getD_of_le (b : Vector Word 16) {m n i : Nat} (hi : i < m) (hmn : m ≤ n) :
    (scheduleList b n).getD i 0 = (scheduleList b m).getD i 0 := by
  induction n with
  | zero => omega
  | succ n ih =>
    rcases Nat.lt_or_ge m (n + 1) with h | h
    · rw [← ih (by omega)]
      simp only [scheduleList, List.getD_eq_getElem?_getD]
      rw [List.getElem?_append_left (by simp; omega)]
    · rw [show m = n + 1 by omega]

/-- A sequence of commands in two parts. -/
theorem execAll_append (is js : List Instr) (s : State) :
    execAll (is ++ js) s =
      match execAll is s with
      | .next s' => execAll js s'
      | .fault r => .fault r
      | .refused r => .refused r := by
  induction is generalizing s with
  | nil => rfl
  | cons i is ih =>
    simp only [List.cons_append, execAll]
    cases exec i s <;> simp [ih]

end Sys2Proof.Machine
end

