-- ==== Sys2Proof/Laws/Commands.lean ====
section
/-! SUPPORT. One lemma per shared operation and per command that has several outcomes: everything it can do, for later
proofs to cite instead of unfolding it. -/

namespace Sys2Proof.Machine

/-! ### The arms of `exec` -/

theorem exec_init (s : State) : exec .init s = execInit s := rfl
theorem exec_ldw (idx : BitVec 4) (data : Word) (s : State) : exec (.ldw idx data) s = execLdw idx data s := rfl
theorem exec_rdm (idx : BitVec 4) (s : State) : exec (.rdm idx) s = execRdm idx s := rfl
theorem exec_compress (s : State) : exec .compress s = execCompress s := rfl
theorem exec_rdh (idx : BitVec 4) (s : State) : exec (.rdh idx) s = execRdh idx s := rfl
theorem exec_ldlenl (data : Word) (s : State) : exec (.ldlenl data) s = execLdlenl data s := rfl
theorem exec_ldlenh (data : Word) (s : State) : exec (.ldlenh data) s = execLdlenh data s := rfl
theorem exec_rdsr (idx : BitVec 4) (s : State) : exec (.rdsr idx) s = execRdsr idx s := rfl
theorem exec_padinit (s : State) : exec .padinit s = execPadinit s := rfl
theorem exec_padblk (s : State) : exec .padblk s = execPadblk s := rfl

/-! ### Shared operations and commands -/

/-- A read of a word of `H` that has been given since reset. -/
theorem readStateWord_known {i : Fin 8} {s : State} (h : s.hKnown = true) : readStateWord i s = (s.h[i], s) := by
  simp [readStateWord, h]

/-- A read of a word of `H` that nothing has given since reset. -/
theorem readStateWord_unknown {i : Fin 8} {s : State} (h : s.hKnown = false) : readStateWord i s = drawWord s := by
  simp [readStateWord, h]

/-- A read of a word of `M` that has been written since reset. -/
theorem readBlockWord_known {i : Fin 16} {s : State} (h : s.mKnown[i] = true) : readBlockWord i s = (s.m[i], s) := by
  unfold readBlockWord; rw [if_pos h]

/-- A read of a word of `M` that has not been written since reset. -/
theorem readBlockWord_unknown {i : Fin 16} {s : State} (h : s.mKnown[i] = false) : readBlockWord i s = drawWord s := by
  unfold readBlockWord; rw [if_neg (by rw [h]; exact Bool.false_ne_true)]

/-- A read of `H` leaves the state as it is, but for the free counter when the word is unknown. -/
theorem readStateWord_state (i : Fin 8) (s : State) :
    (readStateWord i s).2 = { s with free := (readStateWord i s).2.free } := by
  unfold readStateWord; split <;> rfl

/-- A read of `M` leaves the state as it is, but for the free counter when the word is unknown. -/
theorem readBlockWord_state (i : Fin 16) (s : State) :
    (readBlockWord i s).2 = { s with free := (readBlockWord i s).2.free } := by
  unfold readBlockWord; split <;> rfl

theorem stateIndex_of_lt {idx : BitVec 4} (h : idx.toNat < 8) : stateIndex idx = some ⟨idx.toNat, h⟩ := by
  simp [stateIndex, h]

theorem stateIndex_of_ge {idx : BitVec 4} (h : 8 ≤ idx.toNat) : stateIndex idx = none := by
  simp [stateIndex, Nat.not_lt.2 h]

theorem statusIndex_isSome_iff (idx : BitVec 4) : (statusIndex idx).isSome = true ↔ idx.toNat < 8 := by
  revert idx; decide

/-- Everything `PADBLK` can do (40_padding_generator.md R99). -/
theorem execPadblk_cases (s : State) :
    (s.pstate = .error ∧ execPadblk s = .next (raiseCode .dataTooLarge s)) ∨
    ((s.pstate = .idle ∨ s.pstate = .done) ∧ execPadblk s = .next (raiseCode .sequenceError s)) ∨
    (s.pstate = .armed ∧ (∀ p ∈ padReads s.len.toNat s.blk.toNat, p < Config.addressLimit) ∧
      execPadblk s = .next (respondOk 0 (advanceBlock (writeBlock (padBlock s.msg s.len.toNat s.blk.toNat) s)))) ∨
    (s.pstate = .armed ∧ (∃ p ∈ padReads s.len.toNat s.blk.toNat, Config.addressLimit ≤ p) ∧
      execPadblk s = .fault .noSuchAddress) := by
  cases hp : s.pstate with
  | error => exact .inl ⟨rfl, by simp [execPadblk, hp]⟩
  | idle => exact .inr (.inl ⟨.inl rfl, by simp [execPadblk, hp]⟩)
  | done => exact .inr (.inl ⟨.inr rfl, by simp [execPadblk, hp]⟩)
  | armed =>
    by_cases hr : ∀ p ∈ padReads s.len.toNat s.blk.toNat, p < Config.addressLimit
    · exact .inr (.inr (.inl ⟨rfl, hr, by simp only [execPadblk, hp]; rw [if_pos hr]⟩))
    · refine .inr (.inr (.inr ⟨rfl, ?_, by simp only [execPadblk, hp]; rw [if_neg hr]⟩))
      simpa only [not_forall, Nat.not_lt, exists_prop] using hr

/-- Everything `PADINIT` can do (R98). -/
theorem execPadinit_cases (s : State) :
    (Config.maxLen < s.len.toNat ∧ execPadinit s = .next (raiseCode .dataTooLarge (enterError s))) ∨
    (s.len.toNat ≤ Config.maxLen ∧ execPadinit s = .next (respondOk 0 (arm s))) := by
  by_cases h : Config.maxLen < s.len.toNat
  · exact .inl ⟨h, if_pos h⟩
  · exact .inr ⟨Nat.not_lt.1 h, if_neg h⟩

/-- Everything `COMPRESS` can do (42_compression_engine.md R142, 10_state.md R38). -/
theorem execCompress_cases (s : State) :
    (operandsKnown s ∧
      execCompress s = .next (respondOk 0 (dropHidden (compressRun s)))) ∨
    (¬ operandsKnown s ∧ execCompress s = .next (respondOk 0 (dropHidden (dropRunningState s)))) := by
  by_cases h : operandsKnown s
  · exact .inl ⟨h, if_pos h⟩
  · exact .inr ⟨h, if_neg h⟩

/-- Everything the port can do with a command word (60_exceptions.md R175). -/
theorem acceptWord_cases (w : CmdWord) (s : State) :
    (∃ i, decode w = .ok i ∧ acceptWord w s = exec i s) ∨
    (∃ e, decode w = .error e ∧ acceptWord w s = .next (raiseCode .illegalCommand s)) := by
  unfold acceptWord
  cases h : decode w with
  | ok i => exact .inl ⟨i, rfl, rfl⟩
  | error e => exact .inr ⟨e, rfl, rfl⟩

/-- The addresses a `PADBLK` reads (20_memory.md R64). -/
theorem mem_padReads (L k p : Nat) : p ∈ padReads L k ↔ 64 * k ≤ p ∧ p < min (64 * k + 64) L := by
  simp only [padReads, List.mem_range'_1]; omega

/-- For an accepted length every address a `PADBLK` reads exists (R64). -/
theorem padReads_exist {L k : Nat} (hL : L ≤ Config.maxLen) : ∀ p ∈ padReads L k, p < Config.addressLimit := by
  intro p hp
  rw [mem_padReads] at hp
  have : Config.maxLen = Config.addressLimit := rfl
  omega

/-- `PADBLK` in `ARMED` with an accepted length produces its block (40_padding_generator.md R99). -/
theorem execPadblk_armed {s : State} (hp : s.pstate = .armed) (hL : s.len.toNat ≤ Config.maxLen) :
    execPadblk s = .next (respondOk 0 (advanceBlock (writeBlock (padBlock s.msg s.len.toNat s.blk.toNat) s))) := by
  rcases execPadblk_cases s with ⟨h, -⟩ | ⟨h | h, -⟩ | ⟨-, -, h⟩ | ⟨-, ⟨p, hm, hge⟩, -⟩
  · rw [hp] at h; cases h
  · rw [hp] at h; cases h
  · rw [hp] at h; cases h
  · exact h
  · exact absurd (padReads_exist hL p hm) (Nat.not_lt.2 hge)

/-- A word of a padded block (R95). -/
theorem padBlock_getElem (mem : Memory) (L k j : Nat) (hj : j < 16) : (padBlock mem L k)[j] = padWord mem L k j := by
  simp [padBlock]

/-- The block count in 64-bit range: at most `2^52 + 1` for an accepted length (R93). -/
theorem blockCount_le {L : Nat} (hL : L ≤ Config.maxLen) : blockCount L ≤ 2 ^ 52 + 1 := by
  unfold blockCount Config.maxLen Config.limitLog2 at *; omega

end Sys2Proof.Machine
end

