-- ==== Sys2Proof/Laws/Decode.lean ====
section
/-! SUPPORT. The fields of a command word built from fields, and a command word rebuilt from its fields
(30_encoding.md R70). -/

namespace Sys2Proof

@[simp] theorem cmdOp_cmdWord (op idx : BitVec 4) (data : Word) : cmdOp (cmdWord op idx data) = op := by
  ext i hi
  simp only [cmdOp, cmdWord, BitVec.getElem_extractLsb', BitVec.getLsbD_append]
  rw [if_neg (by omega)]
  simp [show 36 + i - (4 + 32) = i by omega, BitVec.getLsbD_eq_getElem hi]

@[simp] theorem cmdIdx_cmdWord (op idx : BitVec 4) (data : Word) : cmdIdx (cmdWord op idx data) = idx := by
  ext i hi
  simp only [cmdIdx, cmdWord, BitVec.getElem_extractLsb', BitVec.getLsbD_append]
  rw [if_pos (by omega), if_neg (by omega)]
  simp [show 32 + i - 32 = i by omega, BitVec.getLsbD_eq_getElem hi]

@[simp] theorem cmdData_cmdWord (op idx : BitVec 4) (data : Word) : cmdData (cmdWord op idx data) = data := by
  ext i hi
  simp only [cmdData, cmdWord, BitVec.getElem_extractLsb', BitVec.getLsbD_append]
  rw [if_pos (by omega), if_pos (by omega)]
  simp [BitVec.getLsbD_eq_getElem hi]

/-- Every command word is its three fields. -/
theorem cmdWord_fields (w : CmdWord) : cmdWord (cmdOp w) (cmdIdx w) (cmdData w) = w := by
  ext i hi
  simp only [cmdOp, cmdIdx, cmdData, cmdWord, ← BitVec.getLsbD_eq_getElem, BitVec.getLsbD_append,
    BitVec.getLsbD_extractLsb']
  split_ifs with h1 h2
  · simp [h2]
  · simp [show 32 + (i - 32) = i by omega, show i - 32 < 4 by omega]
  · simp [show 36 + (i - (4 + 32)) = i by omega, show i - (4 + 32) < 4 by omega]

/-- Every command word has the form that `cmdWord` builds. -/
theorem exists_cmdWord (w : CmdWord) : ∃ op idx data, w = cmdWord op idx data :=
  ⟨cmdOp w, cmdIdx w, cmdData w, (cmdWord_fields w).symm⟩

/-- The bitwise `and` of two command words, field by field. -/
theorem cmdWord_and (op op' idx idx' : BitVec 4) (data data' : Word) :
    cmdWord op idx data &&& cmdWord op' idx' data' = cmdWord (op &&& op') (idx &&& idx') (data &&& data') := by
  ext i hi
  simp only [cmdWord, ← BitVec.getLsbD_eq_getElem, BitVec.getLsbD_append, BitVec.getLsbD_and]
  split_ifs <;> rfl

/-- Two command words are equal exactly when their fields are. -/
theorem cmdWord_inj (op op' idx idx' : BitVec 4) (data data' : Word) :
    cmdWord op idx data = cmdWord op' idx' data' ↔ op = op' ∧ idx = idx' ∧ data = data' := by
  constructor
  · intro h
    exact ⟨by simpa using congrArg cmdOp h, by simpa using congrArg cmdIdx h, by simpa using congrArg cmdData h⟩
  · rintro ⟨rfl, rfl, rfl⟩; rfl

end Sys2Proof
end

