-- ==== Sys2Proof/Laws/Memory.lean ====
section
/-! SUPPORT. The laws of the message memory: read after write, and that the canonical form is kept (20_memory.md R50;
log 8). -/

namespace Sys2Proof.Machine

theorem Memory.wfFrom_cons (lo a : Nat) (b : Byte) (rest : Memory) :
    Memory.wfFrom lo ((a, b) :: rest) = true ↔
      lo ≤ a ∧ a < Config.addressLimit ∧ b ≠ Config.unlistedByte ∧ Memory.wfFrom (a + 1) rest = true := by
  simp only [Memory.wfFrom, Bool.and_eq_true, decide_eq_true_eq, and_assoc]

theorem Memory.wfFrom_mono {lo lo' : Nat} {mem : Memory} (hle : lo' ≤ lo) (h : Memory.wfFrom lo mem = true) :
    Memory.wfFrom lo' mem = true := by
  cases mem with
  | nil => rfl
  | cons c rest =>
    obtain ⟨a, b⟩ := c
    rw [Memory.wfFrom_cons] at h ⊢
    exact ⟨hle.trans h.1, h.2⟩

/-- Below the first listed address a canonical memory reads as unlisted. -/
theorem Memory.read_below {lo a : Nat} {mem : Memory} (h : Memory.wfFrom lo mem = true) (ha : a < lo) :
    mem.read a = Config.unlistedByte := by
  induction mem generalizing lo with
  | nil => rfl
  | cons c rest ih =>
    obtain ⟨a', b'⟩ := c
    rw [Memory.wfFrom_cons] at h
    simp only [Memory.read]
    rw [if_neg (by omega)]
    exact ih h.2.2.2 (by omega)

/-- A write leaves every other address alone. -/
theorem Memory.read_write_other {lo a x : Nat} {b : Byte} {mem : Memory} (h : Memory.wfFrom lo mem = true) (hx : x ≠ a) :
    (mem.write a b).read x = mem.read x := by
  induction mem generalizing lo with
  | nil => by_cases hb : b = Config.unlistedByte <;> simp [Memory.write, Memory.read, hb, hx]
  | cons c rest ih =>
    obtain ⟨a', b'⟩ := c
    rw [Memory.wfFrom_cons] at h
    simp only [Memory.write]
    split_ifs with h1 h2 h3 h4
    · rfl
    · simp [Memory.read, hx]
    · subst h3; simp [Memory.read, hx]
    · subst h3; simp [Memory.read, hx]
    · simp only [Memory.read, ih h.2.2.2]

/-- A read after a write to the same address gives the byte written. -/
theorem Memory.read_write_same {lo a : Nat} {b : Byte} {mem : Memory} (h : Memory.wfFrom lo mem = true) :
    (mem.write a b).read a = b := by
  induction mem generalizing lo with
  | nil => by_cases hb : b = Config.unlistedByte <;> simp [Memory.write, Memory.read, hb]
  | cons c rest ih =>
    obtain ⟨a', b'⟩ := c
    rw [Memory.wfFrom_cons] at h
    simp only [Memory.write]
    split_ifs with h1 h2 h3 h4
    · subst h2
      simp only [Memory.read]
      rw [if_neg (by omega)]
      exact Memory.read_below h.2.2.2 (by omega)
    · simp [Memory.read]
    · subst h3 h4
      exact Memory.read_below h.2.2.2 (by omega)
    · simp [Memory.read]
    · simp only [Memory.read]
      rw [if_neg (by omega)]
      exact ih h.2.2.2

/-- A write to an address that exists keeps the canonical form. -/
theorem Memory.write_wfFrom {lo a : Nat} {b : Byte} {mem : Memory} (h : Memory.wfFrom lo mem = true) (hlo : lo ≤ a)
    (ha : a < Config.addressLimit) : Memory.wfFrom lo (mem.write a b) = true := by
  induction mem generalizing lo with
  | nil => by_cases hb : b = Config.unlistedByte <;> simp [Memory.write, Memory.wfFrom, hb, hlo, ha]
  | cons c rest ih =>
    obtain ⟨a', b'⟩ := c
    rw [Memory.wfFrom_cons] at h
    obtain ⟨g1, g2, g3, g4⟩ := h
    simp only [Memory.write]
    split_ifs with h1 h2 h3 h4
    · exact (Memory.wfFrom_cons ..).2 ⟨g1, g2, g3, g4⟩
    · exact (Memory.wfFrom_cons ..).2 ⟨hlo, ha, h2, (Memory.wfFrom_cons ..).2 ⟨h1, g2, g3, g4⟩⟩
    · exact Memory.wfFrom_mono (by omega) g4
    · exact (Memory.wfFrom_cons ..).2 ⟨hlo, ha, h4, h3 ▸ g4⟩
    · exact (Memory.wfFrom_cons ..).2 ⟨g1, g2, g3, ih g4 (by omega)⟩

/-- The host's write keeps the canonical form of `MSG`. -/
theorem Memory.write_wf {a : Nat} {b : Byte} {mem : Memory} (h : mem.wf = true) (ha : a < Config.addressLimit) :
    (mem.write a b).wf = true :=
  Memory.write_wfFrom h (Nat.zero_le a) ha

theorem Memory.reset_wf : State.reset.msg.wf = true := rfl

end Sys2Proof.Machine
end

