-- ==== Sys2Proof/Laws/PerInstr.lean ====
section
/-! SUPPORT. The family RowMatch: the word of a well-formed command matches the row of the opcode map that has its
mnemonic (30_encoding.md R73, R74). -/

namespace Sys2Proof.Laws.RowMatch

/-- The encoded word of a well-formed command matches its own row. -/
def Statement (i : Instr) : Prop :=
  i.wf = true → ∃ r ∈ opcodeTable, r.mnemonic = i.mnemonic ∧ matchesRow (encode i) r = true

/-- A row in fields. -/
theorem of_fields {op op' mop idx idx' midx : BitVec 4} {data data' mdata : Word} {name : String}
    (h : op &&& mop = op' ∧ idx &&& midx = idx' ∧ data &&& mdata = data') :
    matchesRow (cmdWord op idx data) ⟨name, cmdWord op' idx' data', cmdWord mop midx mdata⟩ = true := by
  simp only [matchesRow, cmdWord_and, beq_iff_eq, cmdWord_inj]
  exact h

theorem idx_below_eight {idx : BitVec 4} (h : idx.toNat < 8) : idx &&& 8 = 0 := by
  revert h idx; decide

theorem init : Statement .init := fun _ => ⟨opcodeTable[0], by decide, by decide, by decide⟩

theorem ldw (idx : BitVec 4) (data : Word) : Statement (.ldw idx data) := fun _ =>
  ⟨opcodeTable[1], by decide, rfl, of_fields (op' := 2) (mop := 0xf) (idx' := 0) (midx := 0) (data' := 0) (mdata := 0)
    ⟨by decide, by simp, by simp⟩⟩

theorem rdm (idx : BitVec 4) : Statement (.rdm idx) := fun _ =>
  ⟨opcodeTable[2], by decide, rfl, of_fields (op' := 3) (mop := 0xf) (idx' := 0) (midx := 0) (data' := 0)
    (mdata := 0xffffffff) ⟨by decide, by simp, by decide⟩⟩

theorem compress : Statement .compress := fun _ => ⟨opcodeTable[3], by decide, by decide, by decide⟩

theorem rdh (idx : BitVec 4) : Statement (.rdh idx) := fun h =>
  ⟨opcodeTable[4], by decide, rfl, of_fields (op' := 5) (mop := 0xf) (idx' := 0) (midx := 8) (data' := 0)
    (mdata := 0xffffffff) ⟨by decide, idx_below_eight (by simpa [Instr.wf] using h), by decide⟩⟩

theorem ldlenl (data : Word) : Statement (.ldlenl data) := fun _ =>
  ⟨opcodeTable[5], by decide, rfl, of_fields (op' := 6) (mop := 0xf) (idx' := 0) (midx := 0xf) (data' := 0) (mdata := 0)
    ⟨by decide, by decide, by simp⟩⟩

theorem ldlenh (data : Word) : Statement (.ldlenh data) := fun _ =>
  ⟨opcodeTable[6], by decide, rfl, of_fields (op' := 7) (mop := 0xf) (idx' := 0) (midx := 0xf) (data' := 0) (mdata := 0)
    ⟨by decide, by decide, by simp⟩⟩

theorem rdsr (idx : BitVec 4) : Statement (.rdsr idx) := fun h =>
  ⟨opcodeTable[7], by decide, rfl, of_fields (op' := 8) (mop := 0xf) (idx' := 0) (midx := 8) (data' := 0)
    (mdata := 0xffffffff) ⟨by decide, idx_below_eight (by simpa [Instr.wf] using h), by decide⟩⟩

theorem padinit : Statement .padinit := fun _ => ⟨opcodeTable[8], by decide, by decide, by decide⟩

theorem padblk : Statement .padblk := fun _ => ⟨opcodeTable[9], by decide, by decide, by decide⟩

end Sys2Proof.Laws.RowMatch
end

