-- ==== Sys2Proof/Tests/Slice0.lean ====
section
/-! SUPPORT. The model's own tests: well-formedness smoke, words written out from the opcode map, one-step tests with the
values of 95_test_vectors.md, and a witness for the hypotheses of every statement that has some. -/

namespace Sys2Proof.Tests

open Sys2Proof.Machine

/-! ### Helpers -/

/-- The next state of an outcome, if there is one. -/
def after (o : Host.Outcome State Fault Refusal) : Option State :=
  match o with
  | .next s => some s
  | .fault _ => none
  | .refused _ => none

/-- The response word that a command word is answered with (30_encoding.md R72). -/
def answer (w : CmdWord) (s : State) : Option RspWord :=
  (after (acceptWord w s)).bind fun t => t.rsp.map Response.word

/-- The block of the message "abc" (95_test_vectors.md T3). -/
def abcBlock : Vector Word 16 := #v[0x61626380, 0, 0, 0, 0, 0, 0, 0, 0, 0, 0, 0, 0, 0, 0, 0x18]

/-- `H` is `IV` and `M` is the block of "abc". -/
def abcState : State := writeBlock abcBlock (writeRunningState initialState State.reset)

/-- The generator in a state of its own, `H` = `IV`. -/
def generatorAt (len blk : DWord) (p : PState) : State :=
  { writeRunningState initialState State.reset with len := len, blk := blk, pstate := p }

/-- Armed for a message of 56 bytes, at block 0. -/
def armed56 : State := { generatorAt 56 0 .armed with msg := [(0, 0x01), (1, 0x02), (2, 0x03), (55, 0x38)] }

/-- In `ERROR` with a length of 2^58 + 1 bytes. -/
def tooLong : State := generatorAt 0x0400000000000001 0 .error

/-- Armed for the largest accepted message, at its last block. -/
def lastOfLargest : State := generatorAt 0x0400000000000000 0x10000000000000 .armed

/-- A state that no run reaches: armed with a length above the bound, at the block that would read address 2^58. -/
def unreachable : State := generatorAt 0x0400000000000001 0x10000000000000 .armed

/-! ### Well-formedness smoke: the ill-formed term of each check (30_encoding.md R74) -/

theorem test_wf_rdh_7_accepted : (Instr.rdh 7).wf = true := by decide
theorem test_wf_rdh_8_refused : (Instr.rdh 8).wf = false := by decide
theorem test_wf_rdsr_7_accepted : (Instr.rdsr 7).wf = true := by decide
theorem test_wf_rdsr_8_refused : (Instr.rdsr 8).wf = false := by decide
theorem test_wf_ldw_15_accepted : (Instr.ldw 15 0xffffffff).wf = true := by decide
theorem test_memory_wf_refuses_unsorted : Memory.wf [(5, 1), (3, 1)] = false := by decide
theorem test_memory_wf_refuses_unlisted_byte : Memory.wf [(3, 0)] = false := by decide

/-! ### Decoding: words written out from R70 and R73, the values of 95_test_vectors.md T8 -/

theorem test_decode_init : (decode 0b0001_0000_00000000000000000000000000000000).toOption = some .init := by decide
theorem test_decode_ldw :
    (decode 0b0010_1111_00000000000000000000000000011000).toOption = some (.ldw 15 0x18) := by decide
theorem test_decode_rdm : (decode 0b0011_1111_00000000000000000000000000000000).toOption = some (.rdm 15) := by decide
theorem test_decode_compress :
    (decode 0b0100_0000_00000000000000000000000000000000).toOption = some .compress := by decide
theorem test_decode_rdh : (decode 0b0101_0111_00000000000000000000000000000000).toOption = some (.rdh 7) := by decide
theorem test_decode_ldlenl :
    (decode 0b0110_0000_00000000000000000000000000111000).toOption = some (.ldlenl 0x38) := by decide
theorem test_decode_ldlenh :
    (decode 0b0111_0000_00000100000000000000000000000000).toOption = some (.ldlenh 0x04000000) := by decide
theorem test_decode_rdsr : (decode 0b1000_0111_00000000000000000000000000000000).toOption = some (.rdsr 7) := by decide
theorem test_decode_padinit :
    (decode 0b1001_0000_00000000000000000000000000000000).toOption = some .padinit := by decide
theorem test_decode_padblk :
    (decode 0b1010_0000_00000000000000000000000000000000).toOption = some .padblk := by decide
theorem test_decode_illegal_words_of_T8 :
    ([0x0000000000, 0x0fffffffff, 0xb000000000, 0xc000000000, 0xd000000000, 0xe000000000, 0xf0ffffffff, 0xffffffffff,
      0x1000000001, 0x1100000000, 0x3000000001, 0x4000000001, 0x4f00000000, 0x5800000000, 0x5f00000000, 0x5000000001,
      0x6100000000, 0x7f00000000, 0x8800000000, 0x8000000001, 0x9000000001, 0xa100000000] : List CmdWord).all
      (fun w => (decode w).toOption.isNone) = true := by decide
theorem test_encode_ldw : encode (.ldw 0 0x61626380) = 0x2061626380 := by decide
theorem test_table_word_above_40_bits : decodeTableWord 48 0x10000000000 = none := by decide
theorem test_step_runs_the_placed_word :
    (after (step (State.reset.withFetchWord 40 0x8700000000))).bind (·.rsp) = some ⟨.ok, 0x3a⟩ := by decide +kernel

/-! ### One step, values of 95_test_vectors.md -/

/-- P5: `H` is `IV` after `INIT`. -/
theorem test_init_loads_iv :
    (after (exec .init State.reset)).map (fun t => (t.h[0], t.h[7])) = some (0x6a09e667, 0x5be0cd19) := by decide
/-- P6: the stray `LDW 0, 0xdeadbeef`. -/
theorem test_ldw_then_reads_back :
    (after (exec (.ldw 0 0xdeadbeef) abcState)).bind (answer 0x3000000000) = some 0x0deadbeef := by decide +kernel
theorem test_ldw_leaves_other_words :
    (after (exec (.ldw 0 0xdeadbeef) abcState)).map (fun t => (t.m[1], t.m[15])) = some (0, 0x18) := by decide +kernel
/-- T3: the last word of the block of "abc". -/
theorem test_rdm_15 : answer 0x3f00000000 abcState = some 0x000000018 := by decide +kernel
/-- P6: an unwritten word is answered `OK`; no value is claimed. -/
theorem test_rdm_unwritten_answers_ok :
    (after (exec (.rdm 0) State.reset)).bind (fun t => t.rsp.map (·.code)) = some .ok := by decide +kernel
/-- T3: `Compress(IV, block of "abc")`. -/
theorem test_compress_abc :
    (after (exec .compress abcState)).map (·.h) =
      some #v[0xba7816bf, 0x8f01cfea, 0x414140de, 0x5dae2223, 0xb00361a3, 0x96177a9c, 0xb410ff61, 0xf20015ad] := by
  decide +kernel
/-- T7: the constants enter every round, so zeros do not give zeros. -/
theorem test_compress_zeros :
    compressFn (Vector.replicate 8 0) (Vector.replicate 16 0) =
      #v[0x7ca51614, 0x425c3ba8, 0xce54dd2f, 0xc2020ae7, 0xb6e574d1, 0x98136d0f, 0xae7e26cc, 0xbf0be7a6] := by
  decide +kernel
/-- P5: `RDH 0` with `H` = `IV`. -/
theorem test_rdh_0 : answer 0x5000000000 abcState = some 0x06a09e667 := by decide +kernel
theorem test_rdh_7 : answer 0x5700000000 abcState = some 0x05be0cd19 := by decide +kernel
/-- P5: `LDLENL 0` leaves `ERROR` with `LEN` = 2^58. -/
theorem test_ldlenl_leaves_error :
    (after (exec (.ldlenl 0) tooLong)).map (fun t => (t.pstate, t.len)) = some (.idle, 0x0400000000000000) := by
  decide +kernel
/-- T10: `LDLENH 0` in mid-message. -/
theorem test_ldlenh_disarms :
    (after (exec (.ldlenh 0) (generatorAt 64 1 .armed))).map (fun t => (t.pstate, t.len, t.blk)) =
      some (.idle, 64, 0) := by decide +kernel
/-- P5: `NBLK` of 2^58 bytes. -/
theorem test_rdsr_nblk_low : answer 0x8500000000 lastOfLargest = some 0x000000001 := by decide +kernel
theorem test_rdsr_nblk_high : answer 0x8600000000 lastOfLargest = some 0x000100000 := by decide +kernel
/-- T10: the bound is inclusive. -/
theorem test_padinit_accepts_largest :
    (after (exec .padinit (generatorAt 0x0400000000000000 0 .idle))).map (fun t => (t.pstate, t.rsp)) =
      some (.armed, some ⟨.ok, 0⟩) := by decide +kernel
theorem test_padinit_refuses_one_more :
    (after (exec .padinit (generatorAt 0x0400000000000001 0 .idle))).map (fun t => (t.pstate, t.rsp)) =
      some (.error, some ⟨.dataTooLarge, 0⟩) := by decide +kernel
/-- T2, `L` = 56: the delimiter in word 14 of block 0, one block still to come. -/
theorem test_padblk_56_block_0 :
    (after (exec .padblk armed56)).map (fun t => (t.m[0], t.m[13], t.m[14], t.m[15], t.pstate)) =
      some (0x01020300, 0x00000038, 0x80000000, 0, .armed) := by decide +kernel
/-- T2, large lengths: the last block of 2^58 bytes. -/
theorem test_padblk_last_block_of_largest :
    (after (exec .padblk lastOfLargest)).map (fun t => (t.m[0], t.m[13], t.m[14], t.m[15], t.pstate)) =
      some (0x80000000, 0, 0x20000000, 0, .done) := by decide +kernel

/-! ### Primitives and schedule, values of T4 and T6 -/

theorem test_big_sigmas : bigSigma0 0x12345678 = 0x66146474 ∧ bigSigma1 0x12345678 = 0x3561abda := by decide
theorem test_little_sigmas : littleSigma0 0x12345678 = 0xe7fce6ee ∧ littleSigma1 0x12345678 = 0xa1f78649 := by decide
theorem test_rotr_25 : rotr 0x12345678 25 = 0x1a2b3c09 := by decide
theorem test_schedule_abc : (schedule abcBlock)[17] = 0x000f0000 ∧ (schedule abcBlock)[63] = 0x12b1edeb := by
  decide +kernel
/-- R81: the assembler text of T8's second row. -/
theorem test_asm_ldw : asmText (.ldw 0 0x61626380) = "LDW 0, 0x61626380" := by decide +kernel

/-- R25: the rows stand under the indices 0, 4, ..., 60. -/
theorem test_k_rows_numbered : kTable.map (·.1) = (List.range 16).map (4 * ·) := by decide
/-- T5: the seed of the block of "abc". -/
theorem test_seed_abc :
    (seedVars initialState).a = 0x6a09e667 ∧ (seedVars initialState).e = 0x510e527f ∧
      (seedVars initialState).h = 0x5be0cd19 := by decide
/-- T5: round 0 of the block of "abc". -/
theorem test_round_0_abc :
    (roundUpdate (seedVars initialState) roundConstants[0] 0x61626380).a = 0x5d6aebcd ∧
      (roundUpdate (seedVars initialState) roundConstants[0] 0x61626380).e = 0xfa2a4622 := by decide +kernel

/-! ### Sample states meet the invariant -/

theorem test_inv_reset : Inv State.reset := ⟨rfl, ⟨rfl, rfl⟩, (fun _ h => nomatch h), rfl⟩
theorem test_inv_armed : Inv armed56 := ⟨⟨by decide, by decide⟩, ⟨rfl, rfl⟩, (fun _ h => nomatch h), by decide⟩
theorem test_inv_done : Inv (generatorAt 56 2 .done) :=
  ⟨⟨by decide, by decide⟩, ⟨rfl, rfl⟩, (fun _ h => nomatch h), rfl⟩
theorem test_inv_error : Inv tooLong := ⟨⟨by decide, rfl⟩, ⟨rfl, rfl⟩, (fun _ h => nomatch h), rfl⟩
theorem test_inv_idle_oversized : Inv (generatorAt 0x0400000000000001 0 .idle) :=
  ⟨rfl, ⟨rfl, rfl⟩, (fun _ h => nomatch h), rfl⟩
theorem test_inv_last_of_largest : Inv lastOfLargest :=
  ⟨⟨by decide, by decide⟩, ⟨rfl, rfl⟩, (fun _ h => nomatch h), rfl⟩
theorem test_operands_known_abc : operandsKnown abcState := ⟨rfl, by decide⟩
theorem test_operands_unknown_reset : ¬ operandsKnown State.reset := by decide

/-! ### Witnesses: states and operands that meet the hypotheses of each statement, at the edges of its clauses -/

theorem test_witness_DecodeOfEncode : (Instr.rdsr 7).wf = true ∧ decode (encode (.rdsr 7)) = .ok (.rdsr 7) :=
  ⟨by decide, rfl⟩
theorem test_witness_EncodeOfDecode : decode 0x2fffffffff = .ok (.ldw 15 0xffffffff) := rfl
theorem test_witness_LegalIffExactlyOneRowMatches :
    matchesRow 0x5700000000 ⟨"RDH", 0x5000000000, 0xf8ffffffff⟩ = true ∧ opcodeTable.all (fun r => !matchesRow 0x5800000000 r)
      ∧ decode 0x5700000000 = .ok (.rdh 7) := ⟨by decide, by decide, rfl⟩
theorem test_witness_UnusedFieldsMustBeZero :
    decode (cmdWord 0xa 0 0) = .ok .padblk ∧ decode (cmdWord 0x5 7 0) = .ok (.rdh 7) ∧
      decode (cmdWord 0x8 8 0) = .error .idxAboveSeven ∧ decode (cmdWord 0x6 0 0xffffffff) = .ok (.ldlenl 0xffffffff) :=
  ⟨rfl, rfl, rfl, rfl⟩
theorem test_witness_IllegalWordAnsweredAndChangesNothing :
    ({ tooLong with port := [.command 0xb000000000] } : State).port = .command 0xb000000000 :: [] ∧
      (∀ r ∈ opcodeTable, matchesRow 0xb000000000 r = false) ∧ 0xb ≤ (cmdOp 0xb000000000).toNat ∧
      cmdOp 0x0fffffffff = 0x0 ∧ (cmdOp 0xaf00000000 = 0xa ∧ cmdIdx 0xaf00000000 ≠ 0) ∧
      (cmdOp 0x3000000001 = 0x3 ∧ cmdData 0x3000000001 ≠ 0) ∧ (cmdOp 0x5800000000 = 0x5 ∧ 8 ≤ (cmdIdx 0x5800000000).toNat) ∧
      (cmdOp 0x7100000000 = 0x7 ∧ cmdIdx 0x7100000000 ≠ 0) :=
  ⟨rfl, by decide, by decide, by decide, by decide, by decide, by decide, by decide⟩
theorem test_witness_StepRunsDecodedCommand :
    ({ State.reset with port := [.command 0x1000000000] } : State).port = .command 0x1000000000 :: [] ∧
      decode 0x1000000000 = .ok .init ∧ decodeTableWord 40 0xa000000000 = some .padblk := ⟨rfl, rfl, by decide⟩
theorem test_witness_EveryCommandGivesOneResponse :
    (∃ t, exec .padblk State.reset = .next t) ∧ (∃ t, exec (.rdh 7) State.reset = .next t) := ⟨⟨_, rfl⟩, ⟨_, rfl⟩⟩
theorem test_witness_ErrorPriority :
    (¬ ∃ i, decode 0xa100000000 = .ok i) ∧ tooLong.pstate = .error ∧ State.reset.pstate = .idle ∧
      (generatorAt 56 2 .done).pstate = .done ∧ 2 ^ 58 < tooLong.len.toNat :=
  ⟨(fun ⟨_, h⟩ => nomatch (show Except.error IllegalWord.unusedIdxNotZero = Except.ok _ from h)), rfl, rfl, rfl, by decide⟩
theorem test_witness_ErrorsChangeNothingElse :
    (∃ t, exec .padinit tooLong = .next t ∧ t.rsp = some ⟨.dataTooLarge, 0⟩) ∧
      (∃ t, exec .padblk State.reset = .next t ∧ t.rsp = some ⟨.sequenceError, 0⟩) ∧
      (∃ t, exec (.rdh 8) State.reset = .next t ∧ t.rsp = some ⟨.illegalCommand, 0⟩) :=
  ⟨⟨_, rfl, rfl⟩, ⟨_, rfl, rfl⟩, ⟨_, rfl, rfl⟩⟩
theorem test_witness_ErrorIsLeftOnlyByLengthLoadOrReset :
    Inv tooLong ∧ tooLong.pstate = .error ∧ loadsLength (.ldlenh 0) = true ∧ usesEngine (.rdh 7) = true ∧
      (Instr.rdh 7).wf = true ∧ ∃ t, exec .padblk tooLong = .next t :=
  ⟨test_inv_error, rfl, rfl, rfl, by decide, ⟨_, rfl⟩⟩
theorem test_witness_OversizedLengthNeverYieldsBlock :
    Inv tooLong ∧ 2 ^ 58 < tooLong.len.toNat ∧ Inv (generatorAt 0x0400000000000001 0 .idle) ∧
      2 ^ 58 < (generatorAt 0x0400000000000001 0 .idle).len.toNat :=
  ⟨test_inv_error, by decide, test_inv_idle_oversized, by decide⟩
theorem test_witness_RotrMovesEveryBit : 1 ≤ 31 ∧ 31 ≤ 31 ∧ rotr 1 31 = 2 ∧ rotr 1 1 = 0x80000000 := by decide
theorem test_witness_ShrIsFloorDivision : 1 ≤ 31 ∧ 31 ≤ 31 ∧ shr 0x80000000 31 = 1 ∧ shr 1 1 = 0 := by decide
theorem test_witness_ChChoosesAndMajVotes :
    31 < 32 ∧ (ch 0x80000000 0x80000000 0).getLsbD 31 = true ∧ (maj 1 1 0).getLsbD 0 = true := by decide
theorem test_witness_SigmaFunctionsBitByBit :
    (littleSigma0 0x80000000).getLsbD 28 = true ∧ (littleSigma0 0x80000000).getLsbD 29 = false ∧
      (littleSigma1 0x80000000).getLsbD 21 = true ∧ (littleSigma1 0x80000000).getLsbD 22 = false := by decide
theorem test_witness_PrimitiveIdentities : (31 + 31) % 32 ≠ 0 ∧ rotr (rotr 0x12345678 31) 31 = rotr 0x12345678 30 := by
  decide
theorem test_witness_ScheduleIsCopyThenRecurrence :
    16 ≤ 16 ∧ 63 < 64 ∧ State.reset.m = Vector.replicate 16 0 := ⟨by decide, by decide, rfl⟩
theorem test_witness_RoundStepUpdatesVariables : ({ abcState with phase := .round, t := 63 } : State).phase = .round := rfl
theorem test_witness_SeedStepWordByWord : ({ abcState with phase := .seed, t := 0 } : State).phase = .seed := rfl
theorem test_witness_FoldStepWordByWord : ({ abcState with phase := .fold, t := 0 } : State).phase = .fold := rfl
theorem test_witness_SequencerTimetable :
    (engineRun 0 (engineStart abcState)).phase = .sched ∧ (engineRun 63 (engineStart abcState)).t = 63 ∧
      (engineRun 64 (engineStart abcState)).phase = .seed ∧ (engineRun 65 (engineStart abcState)).phase = .round ∧
      (engineRun 128 (engineStart abcState)).t = 63 ∧ (engineRun 129 (engineStart abcState)).phase = .fold ∧
      (engineRun 130 (engineStart abcState)).phase = .idle := by decide +kernel
theorem test_witness_CompressFoldsTheBlock : operandsKnown abcState := test_operands_known_abc
theorem test_witness_CompressOfUnwrittenOperands :
    ¬ operandsKnown State.reset ∧ ¬ operandsKnown (writeBlock abcBlock State.reset) := ⟨by decide, by decide⟩
theorem test_witness_CompressTwiceFoldsTheBlockTwice : operandsKnown abcState := test_operands_known_abc
theorem test_witness_InitLoadsInitialState : (15 : BitVec 4) ≠ 0 ∧ (1 : Word) ≠ 0 := by decide
theorem test_witness_EngineIgnoresGenerator :
    usesEngine .compress = true ∧ sameRunningState abcState { abcState with len := 7, pstate := .error } ∧
      sameBlock abcState { abcState with len := 7, pstate := .error } ∧ operandsKnown abcState :=
  ⟨rfl, ⟨rfl, rfl⟩, ⟨rfl, rfl⟩, test_operands_known_abc⟩
theorem test_witness_BlockCountIsLeast : 55 % 64 ≤ 55 ∧ 56 ≤ 56 % 64 ∧ 56 + 9 ≤ 64 * 2 := by decide
theorem test_witness_LengthArithmeticFitsIn64Bits : 64 * blockCount (2 ^ 58) = 2 ^ 58 + 64 := by decide
theorem test_witness_PaddedStreamFourCases :
    127 < 64 * blockCount 56 ∧ padByte armed56.msg 56 55 = 0x38 ∧ padByte armed56.msg 56 56 = 0x80 ∧
      padByte armed56.msg 56 57 = 0 ∧ padByte armed56.msg 56 119 = 0 ∧ padByte armed56.msg 56 120 = 0 ∧
      padByte armed56.msg 56 126 = 0x01 ∧ padByte armed56.msg 56 127 = 0xc0 := by decide +kernel
theorem test_witness_PaddedStreamMeetsContract : (56 : Nat) ≤ 2 ^ 58 ∧ (2 : Nat) ^ 58 ≤ 2 ^ 58 := by decide
theorem test_witness_BlockWordsAreBigEndian :
    Memory.read [(0, 0x61), (1, 0x62), (2, 0x63)] 0 = 0x61 ∧ Memory.read [(0, 0x61), (1, 0x62), (2, 0x63)] 1 = 0x62 ∧
      Memory.read [(0, 0x61), (1, 0x62), (2, 0x63)] 2 = 0x63 ∧ 3 < 4 := by decide
theorem test_witness_LastBlockHoldsBitLength : (2 : Nat) ^ 58 ≤ 2 ^ 58 ∧ (0 : Nat) ≤ 2 ^ 58 := by decide
theorem test_witness_PadblkReadsExactlyItsBytes :
    1 < blockCount 64 ∧ 64 * 0 + 64 ≤ 64 ∧ (padReads 63 0).length = 63 ∧ 64 ≤ 64 * 1 ∧ padReads 64 1 = [] ∧
      64 * 0 + 4 * 15 + 3 < 64 := by decide
theorem test_witness_LdlenlLoadsLowHalf : (15 : BitVec 4) ≠ 0 := by decide
theorem test_witness_LdlenhLoadsHighHalf : (1 : BitVec 4) ≠ 0 := by decide
theorem test_witness_PadinitChecksLengthAndArms :
    lastOfLargest.len.toNat ≤ 2 ^ 58 ∧ 2 ^ 58 < tooLong.len.toNat ∧ (1 : BitVec 4) ≠ 0 := by decide
theorem test_witness_PadblkProducesNextBlock :
    (armed56.pstate = .armed ∧ armed56.len.toNat ≤ 2 ^ 58 ∧ armed56.blk.toNat < blockCount armed56.len.toNat) ∧
      (lastOfLargest.pstate = .armed ∧ lastOfLargest.len.toNat ≤ 2 ^ 58 ∧
        lastOfLargest.blk.toNat < blockCount lastOfLargest.len.toNat) ∧
      tooLong.pstate = .error ∧ State.reset.pstate = .idle ∧ (generatorAt 56 2 .done).pstate = .done := by decide
theorem test_witness_PadblkFaultsOnlyOnMissingAddress :
    (unreachable.pstate = .armed ∧ 64 * unreachable.blk.toNat ≤ 2 ^ 58 ∧
      2 ^ 58 < min (64 * unreachable.blk.toNat + 64) unreachable.len.toNat) ∧ Inv lastOfLargest :=
  ⟨by decide, test_inv_last_of_largest⟩
theorem test_witness_PadblkDeliversBlocksInOrder :
    armed56.len.toNat ≤ 2 ^ 58 ∧ 1 ≤ 2 ∧ 2 ≤ blockCount armed56.len.toNat := by decide
theorem test_witness_GeneratorIgnoresEngine :
    usesEngine .padblk = false ∧ sameGenerator armed56 (writeRunningState (Vector.replicate 8 7) armed56) ∧
      (writeRunningState (Vector.replicate 8 7) armed56).msg = armed56.msg ∧ ∃ t, exec .padinit armed56 = .next t :=
  ⟨rfl, ⟨rfl, rfl, rfl⟩, rfl, ⟨_, rfl⟩⟩
theorem test_witness_RdmReadsBlockWord :
    (15 : Fin 16).val = (15 : BitVec 4).toNat ∧ abcState.mKnown[(15 : Fin 16)] = true ∧ (1 : Word) ≠ 0 := by decide
theorem test_witness_RdhReadsRunningState :
    (7 : Fin 8).val = (7 : BitVec 4).toNat ∧ abcState.hKnown = true ∧ (7 : BitVec 4).toNat < 8 ∧ 8 ≤ (8 : BitVec 4).toNat := by
  decide
theorem test_witness_RdsrReadsStatusViews : (7 : BitVec 4).toNat < 8 ∧ 8 ≤ (8 : BitVec 4).toNat := by decide
theorem test_witness_CommandsWriteOnlyTheirState :
    (∃ t, exec (.ldw 3 7) abcState = .next t) ∧ (∃ t, exec .init abcState = .next t) := ⟨⟨_, rfl⟩, ⟨_, rfl⟩⟩
theorem test_witness_PstateTransitionTable :
    Inv State.reset ∧ Inv armed56 ∧ Inv (generatorAt 56 2 .done) ∧ Inv tooLong ∧
      ∃ t, exec .padblk State.reset = .next t :=
  ⟨test_inv_reset, test_inv_armed, test_inv_done, test_inv_error, ⟨_, rfl⟩⟩
theorem test_witness_ResetLeavesControlStateAsSpecified : (6 : BitVec 4).toNat < 7 ∧ State.reset.port = [] :=
  ⟨by decide, rfl⟩
theorem test_witness_ResetMoveLeavesResetState :
    ({ armed56 with port := [.commandCut 0x4000000000] } : State).port = .commandCut 0x4000000000 :: [] ∧
      ({ armed56 with port := [.reset] } : State).port = .reset :: [] := ⟨rfl, rfl⟩
theorem test_witness_HostStoreChangesOneByte :
    armed56.msg.wf = true ∧ ({ armed56 with port := [.storeByte 55 0] } : State).port = .storeByte 55 0 :: [] :=
  ⟨by decide, rfl⟩
theorem test_host_store_of_unlisted_byte_removes_entry : Memory.write [(3, 1), (55, 0x38)] 55 0 = [(3, 1)] := by decide
theorem test_witness_StepKeepsInvariant :
    Inv { tooLong with port := [.reset] } ∧ ∃ t, step { tooLong with port := [.reset] } = .next t :=
  ⟨⟨⟨by decide, rfl⟩, ⟨rfl, rfl⟩, (fun _ h => nomatch h), rfl⟩, ⟨_, rfl⟩⟩
theorem test_witness_EveryCommandWordIsAnswered :
    Inv { State.reset with port := [.command 0xffffffffff] } ∧
      ({ State.reset with port := [.command 0xffffffffff] } : State).port = .command 0xffffffffff :: [] :=
  ⟨⟨rfl, ⟨rfl, rfl⟩, (fun _ h => nomatch h), rfl⟩, rfl⟩
theorem test_witness_HashLoopFoldsBlocksInOrder :
    armed56.hKnown = true ∧ armed56.pstate = .armed ∧ armed56.len.toNat ≤ 2 ^ 58 ∧
      armed56.blk.toNat < blockCount armed56.len.toNat ∧ armed56.blk.toNat + 2 ≤ blockCount armed56.len.toNat := by decide
theorem test_witness_HostSequenceYieldsTheDigest :
    (0x0400000000000000 : DWord).toNat ≤ 2 ^ 58 ∧ 2 ^ 58 < (0x0400000000000001 : DWord).toNat := by decide
/-- V2: the digest of "Hello, world!" (13 bytes), first and last word. -/
theorem test_digest_hello_world :
    (fun h : Vector Word 8 => (h[0], h[7])) (compressFn initialState (padBlock
      [(0, 0x48), (1, 0x65), (2, 0x6c), (3, 0x6c), (4, 0x6f), (5, 0x2c), (6, 0x20), (7, 0x77), (8, 0x6f), (9, 0x72),
        (10, 0x6c), (11, 0x64), (12, 0x21)] 13 0)) = (0x315f5bdb, 0x5894edd3) := by decide +kernel

end Sys2Proof.Tests
end

section
/-! The effect of a command, said once: `Effect s i t` lists, with its guard, every way in which `exec i s` can give a next
state, and `exec_eq_next_iff` ties it to `exec`. Which command writes which state, and what a command reads, are read off
its cases (10_state.md R39). -/

namespace Sys2Proof.Machine

/-! ### The effect of a command -/

/-- Everything a command can do to a state, one constructor for each of its answers (R141, R142, R150 to R154, R96 to R99). -/
inductive Effect (s : State) : Instr → State → Prop
  | init : Effect s .init (respondOk 0 (writeRunningState initialState s))
  | ldw (idx : BitVec 4) (data : Word) : Effect s (.ldw idx data) (respondOk 0 (writeBlockWord (blockIndex idx) data s))
  | rdmKnown {idx : BitVec 4} (hk : s.mKnown[blockIndex idx] = true) :
      Effect s (.rdm idx) (respondOk s.m[blockIndex idx] s)
  | rdmUnknown {idx : BitVec 4} (hk : s.mKnown[blockIndex idx] = false) :
      Effect s (.rdm idx) (respondOk (drawWord s).1 (drawWord s).2)
  | compressKnown (hk : operandsKnown s) : Effect s .compress (respondOk 0 (dropHidden (compressRun s)))
  | compressUnknown (hk : ¬ operandsKnown s) : Effect s .compress (respondOk 0 (dropHidden (dropRunningState s)))
  | rdhKnown {idx : BitVec 4} {j : Fin 8} (hj : stateIndex idx = some j) (hk : s.hKnown = true) :
      Effect s (.rdh idx) (respondOk s.h[j] s)
  | rdhUnknown {idx : BitVec 4} {j : Fin 8} (hj : stateIndex idx = some j) (hk : s.hKnown = false) :
      Effect s (.rdh idx) (respondOk (drawWord s).1 (drawWord s).2)
  | rdhIllegal {idx : BitVec 4} (hj : stateIndex idx = none) : Effect s (.rdh idx) (raiseCode .illegalCommand s)
  | ldlenl (data : Word) : Effect s (.ldlenl data) (respondOk 0 (disarm { s with len := withLowHalf s.len data }))
  | ldlenh (data : Word) : Effect s (.ldlenh data) (respondOk 0 (disarm { s with len := withHighHalf s.len data }))
  | rdsrView {idx : BitVec 4} {r : StatusReg} (hr : statusIndex idx = some r) :
      Effect s (.rdsr idx) (respondOk (statusValue r s) s)
  | rdsrIllegal {idx : BitVec 4} (hr : statusIndex idx = none) : Effect s (.rdsr idx) (raiseCode .illegalCommand s)
  | padinitError (hL : Config.maxLen < s.len.toNat) : Effect s .padinit (raiseCode .dataTooLarge (enterError s))
  | padinitArm (hL : s.len.toNat ≤ Config.maxLen) : Effect s .padinit (respondOk 0 (arm s))
  | padblkError (hp : s.pstate = .error) : Effect s .padblk (raiseCode .dataTooLarge s)
  | padblkSequence (hp : s.pstate = .idle ∨ s.pstate = .done) : Effect s .padblk (raiseCode .sequenceError s)
  | padblkBlock (hp : s.pstate = .armed) (hr : ∀ p ∈ padReads s.len.toNat s.blk.toNat, p < Config.addressLimit) :
      Effect s .padblk (respondOk 0 (advanceBlock (writeBlock (padBlock s.msg s.len.toNat s.blk.toNat) s)))

/-- Each effect is what `exec` gives. -/
theorem Effect.exec_eq {i : Instr} {s t : State} (h : Effect s i t) : exec i s = .next t := by
  cases h with
  | init => rfl
  | ldw => rfl
  | rdmKnown hk => rw [exec_rdm, execRdm, readBlockWord_known hk]
  | rdmUnknown hk => rw [exec_rdm, execRdm, readBlockWord_unknown hk]
  | compressKnown hk => exact if_pos hk
  | compressUnknown hk => exact if_neg hk
  | rdhKnown hj hk => simp only [exec_rdh, execRdh, hj, readStateWord_known hk]
  | rdhUnknown hj hk => simp only [exec_rdh, execRdh, hj, readStateWord_unknown hk]
  | rdhIllegal hj => simp only [exec_rdh, execRdh, hj]
  | ldlenl => rfl
  | ldlenh => rfl
  | rdsrView hr => simp only [exec_rdsr, execRdsr, hr]
  | rdsrIllegal hr => simp only [exec_rdsr, execRdsr, hr]
  | padinitError hL => exact if_pos hL
  | padinitArm hL => exact if_neg (Nat.not_lt.2 hL)
  | padblkError hp => simp only [exec_padblk, execPadblk, hp]
  | padblkSequence hp => rcases hp with hp | hp <;> simp only [exec_padblk, execPadblk, hp]
  | padblkBlock hp hr => simp only [exec_padblk, execPadblk, hp]; exact if_pos hr

/-- Every command has an effect, but for the stop of `PADBLK` at a missing address (log 11). -/
theorem exists_effect_or_fault (i : Instr) (s : State) :
    (∃ t, Effect s i t) ∨ (i = .padblk ∧ exec i s = .fault .noSuchAddress) := by
  cases i with
  | init => exact .inl ⟨_, .init⟩
  | ldw idx data => exact .inl ⟨_, .ldw idx data⟩
  | rdm idx =>
    cases hk : s.mKnown[blockIndex idx] with
    | true => exact .inl ⟨_, .rdmKnown hk⟩
    | false => exact .inl ⟨_, .rdmUnknown hk⟩
  | compress =>
    by_cases hk : operandsKnown s
    · exact .inl ⟨_, .compressKnown hk⟩
    · exact .inl ⟨_, .compressUnknown hk⟩
  | rdh idx =>
    cases hj : stateIndex idx with
    | none => exact .inl ⟨_, .rdhIllegal hj⟩
    | some j =>
      cases hk : s.hKnown with
      | true => exact .inl ⟨_, .rdhKnown hj hk⟩
      | false => exact .inl ⟨_, .rdhUnknown hj hk⟩
  | ldlenl data => exact .inl ⟨_, .ldlenl data⟩
  | ldlenh data => exact .inl ⟨_, .ldlenh data⟩
  | rdsr idx =>
    cases hr : statusIndex idx with
    | none => exact .inl ⟨_, .rdsrIllegal hr⟩
    | some r => exact .inl ⟨_, .rdsrView hr⟩
  | padinit =>
    rcases execPadinit_cases s with ⟨hL, -⟩ | ⟨hL, -⟩
    · exact .inl ⟨_, .padinitError hL⟩
    · exact .inl ⟨_, .padinitArm hL⟩
  | padblk =>
    rcases execPadblk_cases s with ⟨hp, -⟩ | ⟨hp, -⟩ | ⟨hp, hr, -⟩ | ⟨-, -, h⟩
    · exact .inl ⟨_, .padblkError hp⟩
    · exact .inl ⟨_, .padblkSequence hp⟩
    · exact .inl ⟨_, .padblkBlock hp hr⟩
    · exact .inr ⟨rfl, h⟩

/-- The next states of `exec` are the effects of the command. -/
theorem exec_eq_next_iff {i : Instr} {s t : State} : exec i s = .next t ↔ Effect s i t := by
  refine ⟨fun h => ?_, Effect.exec_eq⟩
  rcases exists_effect_or_fault i s with ⟨u, hu⟩ | ⟨-, hf⟩
  · have htu : t = u := Host.Outcome.next.inj (h.symm.trans hu.exec_eq)
    exact htu ▸ hu
  · exact nomatch h.symm.trans hf

/-- An engine command always has an effect. -/
theorem exists_effect_of_usesEngine {i : Instr} (hi : usesEngine i = true) (s : State) : ∃ t, Effect s i t := by
  rcases exists_effect_or_fault i s with h | ⟨rfl, -⟩
  · exact h
  · cases hi

/-! ### What a command leaves unchanged (R39) -/

/-- `H` is written by `INIT` and `COMPRESS` only (R20). -/
theorem Effect.keeps_runningState {i : Instr} {s t : State} (h : Effect s i t) (hi : i ≠ .init) (hc : i ≠ .compress) :
    sameRunningState s t := by
  cases h with
  | init => exact absurd rfl hi
  | compressKnown => exact absurd rfl hc
  | compressUnknown => exact absurd rfl hc
  | _ => exact ⟨by simp, by simp⟩

/-- `M` is written by `LDW` and `PADBLK` only (R21). -/
theorem Effect.keeps_block {i : Instr} {s t : State} (h : Effect s i t) (hl : ∀ idx data, i ≠ .ldw idx data)
    (hp : i ≠ .padblk) : sameBlock s t := by
  cases h with
  | ldw idx data => exact absurd rfl (hl idx data)
  | padblkError => exact absurd rfl hp
  | padblkSequence => exact absurd rfl hp
  | padblkBlock => exact absurd rfl hp
  | _ => exact ⟨by simp, by simp⟩

/-- The hidden registers are written by `COMPRESS` only (R22 to R24). -/
theorem Effect.keeps_hidden {i : Instr} {s t : State} (h : Effect s i t) (hc : i ≠ .compress) : sameHidden s t := by
  cases h with
  | compressKnown => exact absurd rfl hc
  | compressUnknown => exact absurd rfl hc
  | _ => exact ⟨by simp, by simp, by simp, by simp⟩

/-- `LEN` is written by the two length loads only (R27). -/
theorem Effect.len_eq {i : Instr} {s t : State} (h : Effect s i t) (hl : loadsLength i = false) : t.len = s.len := by
  cases h with
  | ldlenl => cases hl
  | ldlenh => cases hl
  | _ => simp

/-- `BLK` and `PSTATE` are written by the generator's commands only (R28, R29). -/
theorem Effect.blk_pstate_eq {i : Instr} {s t : State} (h : Effect s i t) (hl : loadsLength i = false)
    (hi : i ≠ .padinit) (hb : i ≠ .padblk) : t.blk = s.blk ∧ t.pstate = s.pstate := by
  cases h with
  | ldlenl => cases hl
  | ldlenh => cases hl
  | padinitError => exact absurd rfl hi
  | padinitArm => exact absurd rfl hi
  | padblkError => exact absurd rfl hb
  | padblkSequence => exact absurd rfl hb
  | padblkBlock => exact absurd rfl hb
  | _ => exact ⟨by simp, by simp⟩

/-- No command writes `MSG` (R35, 20_memory.md R50). -/
theorem Effect.msg_eq {i : Instr} {s t : State} (h : Effect s i t) : t.msg = s.msg := by
  cases h <;> simp

/-- No command touches the host's moves still to come. -/
theorem Effect.port_eq {i : Instr} {s t : State} (h : Effect s i t) : t.port = s.port := by
  cases h <;> simp

/-- The length loads belong to the generator (R39). -/
theorem loadsLength_of_usesEngine {i : Instr} (hi : usesEngine i = true) : loadsLength i = false := by
  cases i with
  | ldlenl => cases hi
  | ldlenh => cases hi
  | _ => rfl

/-- An engine command leaves the generator as it is. -/
theorem Effect.keeps_generator_of_usesEngine {i : Instr} {s t : State} (h : Effect s i t) (hi : usesEngine i = true) :
    sameGenerator s t := by
  have hl : loadsLength i = false := loadsLength_of_usesEngine hi
  have hb := h.blk_pstate_eq hl (by rintro rfl; cases hi) (by rintro rfl; cases hi)
  exact ⟨h.len_eq hl, hb⟩

/-- Settles O47: each clause is the frame lemma of the state it speaks of. -/
theorem commandsWriteOnlyTheirState : Obligations.CommandsWriteOnlyTheirState := by
  intro i s t h
  have he : Effect s i t := exec_eq_next_iff.1 h
  exact ⟨he.keeps_runningState, he.keeps_block, he.keeps_hidden, he.len_eq, he.blk_pstate_eq, fun a => by rw [he.msg_eq],
    he.port_eq⟩

/-! ### The generator's commands read nothing of the engine -/

/-- The status views depend on `LEN`, `BLK` and `PSTATE` alone (R30, R31). -/
theorem statusValue_congr {s s' : State} (h : sameGenerator s s') (r : StatusReg) :
    statusValue r s' = statusValue r s := by
  obtain ⟨hlen, hblk, hp⟩ := h
  cases r <;> simp only [statusValue, nblk, hlen, hblk, hp]

/-- Settles O41: the guard and the effect of a generator command in one state are those in the other. -/
theorem generatorIgnoresEngine : Obligations.GeneratorIgnoresEngine := by
  intro i s s' t hi hg hmsg h
  have he : Effect s i t := exec_eq_next_iff.1 h
  have hinit : i ≠ .init := by rintro rfl; cases hi
  have hcompress : i ≠ .compress := by rintro rfl; cases hi
  suffices hs : ∃ t', Effect s' i t' ∧ sameGenerator t t' ∧ t'.rsp = t.rsp ∧ (t'.m = t.m ∨ (t.m = s.m ∧ t'.m = s'.m)) by
    obtain ⟨t', he', hgen, hrsp, hm⟩ := hs
    exact ⟨t', he'.exec_eq, hgen, hrsp, hm, he.keeps_runningState hinit hcompress, he'.keeps_runningState hinit hcompress⟩
  have hview := statusValue_congr hg
  obtain ⟨hlen, hblk, hp⟩ := hg
  cases he with
  | ldlenl data => exact ⟨_, .ldlenl data, by simp [sameGenerator, hlen]⟩
  | ldlenh data => exact ⟨_, .ldlenh data, by simp [sameGenerator, hlen]⟩
  | rdsrView hr => exact ⟨_, .rdsrView hr, by simp [sameGenerator, hlen, hblk, hp, hview]⟩
  | rdsrIllegal hr => exact ⟨_, .rdsrIllegal hr, by simp [sameGenerator, hlen, hblk, hp]⟩
  | padinitError hL => exact ⟨_, .padinitError (hlen ▸ hL), by simp [sameGenerator, hlen]⟩
  | padinitArm hL => exact ⟨_, .padinitArm (hlen ▸ hL), by simp [sameGenerator, hlen]⟩
  | padblkError hq => exact ⟨_, .padblkError (hp ▸ hq), by simp [sameGenerator, hlen, hblk, hp]⟩
  | padblkSequence hq => exact ⟨_, .padblkSequence (hp ▸ hq), by simp [sameGenerator, hlen, hblk, hp]⟩
  | padblkBlock hq hr =>
    exact ⟨_, .padblkBlock (hp ▸ hq) (hlen ▸ hblk ▸ hr), by simp [sameGenerator, hlen, hblk, hp, hmsg]⟩
  | _ => cases hi

/-! ### The engine reads `H` and `M` alone

`W` and the working variables differ between the two runs when they begin: `EngineAgrees` says which part of them the
sequence of R140 has written by now, and so reads. -/

/-- Two states inside `COMPRESS` at the same point, which agree on `H`, `M` and what the sequence has written so far. -/
structure EngineAgrees (s s' : State) : Prop where
  h : s'.h = s.h
  m : s'.m = s.m
  phase : s'.phase = s.phase
  t : s'.t = s.t
  written : s.phase = .sched → ∀ (i : Nat) (hi : i < 64), i < s.t.val → s'.w[i] = s.w[i]
  schedule : s.phase = .seed ∨ s.phase = .round → s'.w = s.w
  vars : s.phase = .round ∨ s.phase = .fold → s'.vars = s.vars

/-- A schedule step reads words of `M`, and words of `W` already written (42_compression_engine.md R131, R132). -/
theorem EngineAgrees.scheduleStepWord_eq {s s' : State} (h : EngineAgrees s s') (hp : s.phase = .sched) :
    scheduleStepWord s' = scheduleStepWord s := by
  have hw := h.written hp
  have ht := s.t.isLt
  unfold scheduleStepWord
  simp only [h.t, h.m]
  split
  · rfl
  · rw [hw _ _ (by omega), hw _ _ (by omega), hw _ _ (by omega), hw _ _ (by omega)]

/-- After the write of step `T` the two schedules agree up to `T`. -/
theorem EngineAgrees.set_getElem_eq {s s' : State} (h : EngineAgrees s s') (hp : s.phase = .sched) {i : Nat}
    (hi : i < 64) (hit : i ≤ s.t.val) :
    (s'.w.set s'.t (scheduleStepWord s'))[i] = (s.w.set s.t (scheduleStepWord s))[i] := by
  rw [h.scheduleStepWord_eq hp]
  simp only [h.t, Vector.getElem_set]
  split
  · rfl
  · exact h.written hp i hi (by omega)

/-- A round reads `K[T]`, `W[T]` and the working variables (R134, R135). -/
theorem EngineAgrees.roundUpdate_eq {s s' : State} (h : EngineAgrees s s') (hp : s.phase = .round) :
    roundUpdate s'.vars roundConstants[s'.t] s'.w[s'.t] = roundUpdate s.vars roundConstants[s.t] s.w[s.t] := by
  simp only [h.t, h.schedule (.inr hp), h.vars (.inl hp)]

/-- The sequencer at rest (R140). -/
theorem engineStep_idle {s : State} (hp : s.phase = .idle) : engineStep s = s := by
  unfold engineStep; rw [hp]

/-- A step of the schedule phase keeps the agreement; the last one completes `W`. -/
theorem EngineAgrees.step_sched {s s' : State} (h : EngineAgrees s s') (hp : s.phase = .sched) :
    EngineAgrees (engineStep s) (engineStep s') := by
  have hset {i : Nat} := h.set_getElem_eq hp (i := i)
  have hp' : s'.phase = .sched := h.phase.trans hp
  by_cases ht : s.t = 63
  · rw [engineStep_sched_last hp ht, engineStep_sched_last hp' (h.t.trans ht)]
    exact {
      h := h.h, m := h.m, phase := rfl, t := rfl
      written := nofun
      schedule := fun _ => Vector.ext fun i hi => hset hi (by rw [ht]; exact Nat.le_of_lt_succ hi)
      vars := by simp }
  · rw [engineStep_sched hp ht, engineStep_sched hp' (h.t ▸ ht)]
    have hsucc : (s.t + 1).val = s.t.val + 1 := Fin.val_add_one_of_lt (Fin.lt_last_iff_ne_last.2 ht)
    exact {
      h := h.h, m := h.m, phase := h.phase, t := congrArg (· + 1) h.t
      written := fun _ i hi hit => hset hi (by simp only [hsucc] at hit; omega)
      schedule := by simp [hp]
      vars := by simp [hp] }

/-- A round keeps the agreement. -/
theorem EngineAgrees.step_round {s s' : State} (h : EngineAgrees s s') (hp : s.phase = .round) :
    EngineAgrees (engineStep s) (engineStep s') := by
  have hround := h.roundUpdate_eq hp
  have hp' : s'.phase = .round := h.phase.trans hp
  by_cases ht : s.t = 63
  · rw [engineStep_round_last hp ht, engineStep_round_last hp' (h.t.trans ht)]
    exact ⟨h.h, h.m, rfl, rfl, nofun, by simp, fun _ => hround⟩
  · rw [engineStep_round hp ht, engineStep_round hp' (h.t ▸ ht)]
    exact ⟨h.h, h.m, h.phase, congrArg (· + 1) h.t, by simp [hp], fun _ => h.schedule (.inr hp), fun _ => hround⟩

/-- Every internal step keeps the agreement. -/
theorem EngineAgrees.step {s s' : State} (h : EngineAgrees s s') : EngineAgrees (engineStep s) (engineStep s') := by
  cases hp : s.phase with
  | idle => rwa [engineStep_idle hp, engineStep_idle (h.phase.trans hp)]
  | sched => exact h.step_sched hp
  | seed =>
    rw [engineStep_seed hp, engineStep_seed (h.phase.trans hp)]
    exact ⟨h.h, h.m, rfl, rfl, nofun, fun _ => h.schedule (.inl hp), fun _ => congrArg seedVars h.h⟩
  | round => exact h.step_round hp
  | fold =>
    rw [engineStep_fold hp, engineStep_fold (h.phase.trans hp)]
    exact ⟨congrArg₂ foldVars h.h (h.vars (.inr hp)), h.m, rfl, rfl, nofun, by simp, by simp⟩

/-- Any number of internal steps keeps the agreement. -/
theorem EngineAgrees.run {s s' : State} (h : EngineAgrees s s') (n : Nat) :
    EngineAgrees (engineRun n s) (engineRun n s') := by
  induction n generalizing s s' with
  | zero => exact h
  | succ n ih => exact ih h.step

/-- At the start nothing has been written, so `H` and `M` are all that must agree. -/
theorem engineAgrees_engineStart {s s' : State} (hh : s'.h = s.h) (hm : s'.m = s.m) :
    EngineAgrees (engineStart s) (engineStart s') :=
  ⟨hh, hm, rfl, rfl, fun _ _ _ hi => absurd hi (Nat.not_lt_zero _), nofun, nofun⟩

/-- The `H` that `COMPRESS` leaves depends on `H` and `M` alone (R143). -/
theorem compressRun_h_congr {s s' : State} (hh : s'.h = s.h) (hm : s'.m = s.m) :
    (compressRun s').h = (compressRun s).h := by
  rw [compressRun_eq, compressRun_eq]
  exact ((engineAgrees_engineStart hh hm).run 130).h

/-- Settles O27: the guard and the effect of an engine command in one state are those in the other; for `COMPRESS` by
`compressRun_h_congr`, since the two runs may begin with different hidden registers. -/
theorem engineIgnoresGenerator : Obligations.EngineIgnoresGenerator := by
  intro i s s' hi hH hM hfree
  obtain ⟨t, he⟩ := exists_effect_of_usesEngine hi s
  suffices hs : ∃ t', Effect s' i t' ∧ (operandsKnown s ∨ i ≠ .compress → sameRunningState t t') ∧ sameBlock t t' ∧
      t'.rsp = t.rsp by
    obtain ⟨t', he', hrun, hblock, hrsp⟩ := hs
    exact ⟨t, t', he.exec_eq, he'.exec_eq, hrun, hblock, hrsp, he.keeps_generator_of_usesEngine hi,
      he'.keeps_generator_of_usesEngine hi⟩
  obtain ⟨hh, hhk⟩ := hH
  obtain ⟨hm, hmk⟩ := hM
  have hops : operandsKnown s' ↔ operandsKnown s := by rw [operandsKnown, hhk, hmk]
  cases he with
  | init => exact ⟨_, .init, by simp [sameRunningState, sameBlock, hm, hmk]⟩
  | ldw idx data => exact ⟨_, .ldw idx data, by simp [sameRunningState, sameBlock, hh, hhk, hm, hmk]⟩
  | rdmKnown hk => exact ⟨_, .rdmKnown (hmk ▸ hk), by simp [sameRunningState, sameBlock, hh, hhk, hm, hmk]⟩
  | rdmUnknown hk => exact ⟨_, .rdmUnknown (hmk ▸ hk), by simp [sameRunningState, sameBlock, hh, hhk, hm, hmk, hfree]⟩
  | compressKnown hk =>
    exact ⟨_, .compressKnown (hops.2 hk), by simp [sameRunningState, sameBlock, compressRun_h_congr hh hm, hhk, hm, hmk]⟩
  | compressUnknown hk =>
    exact ⟨_, .compressUnknown (mt hops.1 hk), fun h => (h.elim hk (absurd rfl)).elim, by simp [sameBlock, hm, hmk]⟩
  | rdhKnown hj hk => exact ⟨_, .rdhKnown hj (hhk ▸ hk), by simp [sameRunningState, sameBlock, hh, hhk, hm, hmk]⟩
  | rdhUnknown hj hk =>
    exact ⟨_, .rdhUnknown hj (hhk ▸ hk), by simp [sameRunningState, sameBlock, hh, hhk, hm, hmk, hfree]⟩
  | rdhIllegal hj => exact ⟨_, .rdhIllegal hj, by simp [sameRunningState, sameBlock, hh, hhk, hm, hmk]⟩
  | _ => cases hi

/-! ### `COMPRESS` of unwritten operands, reset, the constants -/

/-- Settles O24: the second answer of `COMPRESS` drops `H` and the hidden registers and nothing else (R38). -/
theorem compressOfUnwrittenOperands : Obligations.CompressOfUnwrittenOperands := by
  intro s hk
  have he : Effect s .compress (respondOk 0 (dropHidden (dropRunningState s))) := .compressUnknown hk
  refine ⟨_, ⟨he.exec_eq, rfl⟩, by simp, by simp, by simp, ?_, he.keeps_generator_of_usesEngine rfl,
    fun a => by rw [he.msg_eq], he.port_eq⟩
  exact he.keeps_block (fun _ _ => nofun) nofun

/-- `LIMIT` is the view with the number 7 (R30). -/
theorem statusIndex_eq_limit_iff (idx : BitVec 4) : statusIndex idx = some .limit ↔ idx = 7 := by
  revert idx; decide

/-- Every view but `LIMIT` reads 0 after reset (R37). -/
theorem statusValue_reset {r : StatusReg} (hr : r ≠ .limit) : statusValue r State.reset = 0 := by
  cases r with
  | limit => exact absurd rfl hr
  | _ => rfl

/-- With no move pending a step leaves the state as it is (70_reset_and_hazards.md R191). -/
theorem step_of_port_nil {s : State} (h : s.port = []) : step s = .next s := by
  simp only [step, takeMove, h]

/-- Settles O49: the fields of the reset state, and what the views read there. -/
theorem resetLeavesControlStateAsSpecified : Obligations.ResetLeavesControlStateAsSpecified := by
  refine ⟨⟨rfl, rfl, rfl, rfl, rfl, rfl, rfl, rfl, by decide⟩, fun idx hidx => ?_, ?_, fun _ => step_of_port_nil⟩
  · obtain ⟨r, hr⟩ := Option.isSome_iff_exists.1 ((statusIndex_isSome_iff idx).2 (by omega))
    have hlimit : r ≠ .limit := by
      rintro rfl
      obtain rfl := (statusIndex_eq_limit_iff idx).1 hr
      exact absurd hidx (by decide)
    exact ⟨_, (Effect.rdsrView hr).exec_eq, by rw [respondOk_rsp, statusValue_reset hlimit]⟩
  · exact ⟨_, (Effect.rdsrView ((statusIndex_eq_limit_iff 7).2 rfl)).exec_eq, rfl⟩

/-- Settles O60: the table evaluates to the 64 words. -/
theorem roundConstantsAreTheSpecTable : Obligations.RoundConstantsAreTheSpecTable := by
  unfold Obligations.RoundConstantsAreTheSpecTable
  decide

end Sys2Proof.Machine
end

section
/-! The padded block and the message memory: where each byte of a block lands, what a block depends on, and when a read
misses `MSG` (20_memory.md R50 to R64). -/

namespace Sys2Proof.Machine

/-! ### The bytes of a word -/

/-- Byte `b` of a packed word, counted from the most significant end (20_memory.md R52). -/
theorem packWord_extractLsb' (f : Nat → Byte) {b : Nat} (hb : b < 4) :
    (packWord (f 0) (f 1) (f 2) (f 3)).extractLsb' (24 - 8 * b) 8 = f b := by
  obtain rfl | rfl | rfl | rfl : b = 0 ∨ b = 1 ∨ b = 2 ∨ b = 3 := by omega
  all_goals
    ext i hi
    simp only [packWord, BitVec.getElem_extractLsb', BitVec.getLsbD_append]
    grind

/-- The four low bytes of a number, packed, are its low 32 bits. -/
theorem packWord_ofNat (n : Nat) :
    packWord (BitVec.ofNat 8 (n >>> 24)) (BitVec.ofNat 8 (n >>> 16)) (BitVec.ofNat 8 (n >>> 8)) (BitVec.ofNat 8 n) =
      BitVec.ofNat 32 n := by
  refine BitVec.eq_of_getLsbD_eq fun i hi => ?_
  simp only [packWord, BitVec.getLsbD_append, BitVec.getLsbD_ofNat, Nat.testBit_shiftRight]
  grind

/-- Byte `b` of word `j` of a block is a byte of the padded stream (R52). -/
theorem padBlock_extractLsb' (mem : Memory) (L k : Nat) (j : Fin 16) {b : Nat} (hb : b < 4) :
    (padBlock mem L k)[j].extractLsb' (24 - 8 * b) 8 = padByte mem L (64 * k + 4 * j.val + b) := by
  rw [Fin.getElem_fin, padBlock_getElem mem L k j.val j.isLt]
  exact packWord_extractLsb' (fun i => padByte mem L (64 * k + 4 * j.val + i)) hb

/-! ### The bytes of the padded stream (40_padding_generator.md R94) -/

theorem padByte_of_lt (mem : Memory) {L p : Nat} (hp : p < L) : padByte mem L p = mem.read p := if_pos hp

theorem padByte_self (mem : Memory) (L : Nat) : padByte mem L L = 0x80 := by simp [padByte]

/-- The last eight bytes hold the bit length, most significant byte first. -/
theorem padByte_of_length (mem : Memory) {L p : Nat} (hp : 64 * blockCount L - 8 ≤ p) :
    padByte mem L p = BitVec.ofNat 8 ((8 * L) >>> (8 * (64 * blockCount L - 1 - p))) := by
  have hL : L < 64 * blockCount L - 8 := by unfold blockCount; omega
  rw [padByte, if_neg (by omega), if_neg (by omega), if_neg (by omega)]

/-- A byte of the padded stream depends on `MSG` at its own position at most. -/
theorem padByte_congr {mem mem' : Memory} {L p : Nat} (h : p < L → mem.read p = mem'.read p) :
    padByte mem L p = padByte mem' L p := by
  by_cases hp : p < L
  · rw [padByte_of_lt mem hp, padByte_of_lt mem' hp, h hp]
  · simp only [padByte, if_neg hp]

/-- A block depends on the bytes of `MSG` that its `PADBLK` reads, and on no other (R64). -/
theorem padBlock_congr {mem mem' : Memory} {L k : Nat} (h : ∀ p ∈ padReads L k, mem.read p = mem'.read p) :
    padBlock mem L k = padBlock mem' L k := by
  have hbyte : ∀ p, 64 * k ≤ p → p < 64 * k + 64 → padByte mem L p = padByte mem' L p := fun p hlo hhi =>
    padByte_congr fun hL => h p ((mem_padReads L k p).2 ⟨hlo, lt_min hhi hL⟩)
  ext j hj : 1
  rw [padBlock_getElem mem L k j hj, padBlock_getElem mem' L k j hj]
  unfold padWord
  congr 1 <;> exact hbyte _ (by omega) (by omega)

/-- Words 14 and 15 of the last block are the two halves of the bit length (R53, R95). -/
theorem padWord_lastBlock (mem : Memory) (L : Nat) {j : Nat} (hj : j < 2) :
    padWord mem L (blockCount L - 1) (14 + j) = BitVec.ofNat 32 ((8 * L) >>> (32 * (1 - j))) := by
  have hN : 1 ≤ blockCount L := Nat.le_add_left 1 _
  have hbyte : ∀ i < 4, padByte mem L (64 * (blockCount L - 1) + 4 * (14 + j) + i) =
      BitVec.ofNat 8 ((8 * L) >>> (32 * (1 - j)) >>> (8 * (3 - i))) := by
    intro i hi
    rw [padByte_of_length mem (by omega), ← Nat.shiftRight_add]
    congr 2
    omega
  rw [padWord, ← packWord_ofNat]
  congr 1
  · exact hbyte 0 (by decide)
  · exact hbyte 1 (by decide)
  · exact hbyte 2 (by decide)
  · exact hbyte 3 (by decide)

/-! ### The obligations -/

/-- Settles O32: a block word packs four bytes of the stream; in the example they are "abc" and the delimiter. -/
theorem blockWordsAreBigEndian : Obligations.BlockWordsAreBigEndian := by
  refine ⟨fun mem L k j b hb => padBlock_extractLsb' mem L k j hb, fun mem h0 h1 h2 => ?_⟩
  rw [padBlock_getElem mem 3 0 0 (by decide), padWord]
  simp only [padByte_of_lt mem (show 0 < 3 by decide), padByte_of_lt mem (show 1 < 3 by decide),
    padByte_of_lt mem (show 2 < 3 by decide), padByte_self, h0, h1, h2, Nat.mul_zero, Nat.zero_add]
  decide

/-- Settles O33: the high half of `8 L` is below `2^32` because `8 L` is at most `2^61`. -/
theorem lastBlockHoldsBitLength : Obligations.LastBlockHoldsBitLength := by
  intro mem L hL
  rw [padBlock_getElem mem L _ 14 (by decide), padBlock_getElem mem L _ 15 (by decide),
    padWord_lastBlock mem L (j := 0) (by decide), padWord_lastBlock mem L (j := 1) (by decide)]
  simp only [BitVec.toNat_ofNat, Nat.shiftRight_eq_div_pow]
  omega

/-- Settles O34: the reads are an interval of stream positions, and the block depends on the message bytes there. -/
theorem padblkReadsExactlyItsBytes : Obligations.PadblkReadsExactlyItsBytes := by
  intro L k hL _
  have hlen : (padReads L k).length = min (64 * k + 64) L - 64 * k := List.length_range'
  refine ⟨mem_padReads L k, fun _ => by omega, fun _ _ => by omega, fun _ => List.length_eq_zero_iff.1 (by omega),
    padReads_exist hL, fun mem j b hb hp => ?_, fun mem mem' => padBlock_congr⟩
  rw [padBlock_extractLsb' mem L k j hb, padByte_of_lt mem hp]

/-- `PADBLK` faults exactly when it is armed and would read an address that does not exist (log 11). -/
theorem exec_padblk_eq_fault_iff (s : State) :
    exec .padblk s = .fault .noSuchAddress ↔
      s.pstate = .armed ∧ ∃ p ∈ padReads s.len.toNat s.blk.toNat, Config.addressLimit ≤ p := by
  rw [exec_padblk]
  constructor
  · intro hf
    rcases execPadblk_cases s with ⟨-, h⟩ | ⟨-, h⟩ | ⟨-, -, h⟩ | ⟨hp, hr, -⟩
    · exact nomatch h.symm.trans hf
    · exact nomatch h.symm.trans hf
    · exact nomatch h.symm.trans hf
    · exact ⟨hp, hr⟩
  · rintro ⟨hp, p, hm, hge⟩
    rw [execPadblk, hp]
    exact if_neg fun hr => Nat.not_lt.2 hge (hr p hm)

/-- Settles O39: the fault needs a missing address, and in `ARMED` the invariant bounds the length (R100). -/
theorem padblkFaultsOnlyOnMissingAddress : Obligations.PadblkFaultsOnlyOnMissingAddress := by
  intro s
  refine ⟨?_, fun hinv hf => ?_⟩
  · simp only [exec_padblk_eq_fault_iff, mem_padReads, and_assoc]
    rfl
  · obtain ⟨hp, p, hm, hge⟩ := (exec_padblk_eq_fault_iff s).1 hf
    have hgen := hinv.generator
    rw [generatorOk, hp] at hgen
    obtain ⟨hL, -⟩ := hgen
    exact Nat.not_lt.2 hge (padReads_exist hL p hm)

/-- A step that finds a store of the host on the port writes that byte and takes the move (log 9). -/
theorem step_of_port_storeByte {s : State} {a : BitVec 58} {b : Byte} {rest : List HostMove}
    (h : s.port = .storeByte a b :: rest) : step s = .next { s with msg := s.msg.write a.toNat b, port := rest } := by
  simp only [step, takeMove, h]

/-- Settles O51: the laws of the message memory, on the state the store leaves. -/
theorem hostStoreChangesOneByte : Obligations.HostStoreChangesOneByte := by
  intro s a b rest hwf hport
  exact ⟨_, step_of_port_storeByte hport, Memory.read_write_same hwf, fun x hx => Memory.read_write_other hwf hx,
    Memory.write_wf hwf a.isLt, rfl, ⟨rfl, rfl⟩, ⟨rfl, rfl⟩, ⟨rfl, rfl, rfl, rfl⟩, ⟨rfl, rfl, rfl⟩, rfl⟩

end Sys2Proof.Machine
end

section
/-! The decoder and the opcode map: what `decode` accepts is the image of `encode` on well-formed commands
(`decode_eq_ok_iff`), and a word is legal, matches a row of the map, and has its unused fields zero together
(`legal_tfae`) (30_encoding.md R70 to R80). -/

namespace Sys2Proof

/-! ### What each operand form of the decoder accepts (R74) -/

theorem decodePlain_eq_ok_iff {idx : BitVec 4} {data : Word} {i j : Instr} :
    decodePlain idx data i = .ok j ↔ idx = 0 ∧ data = 0 ∧ j = i := by
  unfold decodePlain
  split_ifs with hidx hdata
  · exact ⟨nofun, fun ⟨h, _⟩ => absurd h hidx⟩
  · exact ⟨nofun, fun ⟨_, h, _⟩ => absurd h hdata⟩
  · rw [Except.ok.injEq, eq_comm, not_ne_iff.1 hidx, not_ne_iff.1 hdata]
    simp

theorem decodeData_eq_ok_iff {idx : BitVec 4} {data : Word} {mk : Word → Instr} {j : Instr} :
    decodeData idx data mk = .ok j ↔ idx = 0 ∧ j = mk data := by
  unfold decodeData
  split_ifs with hidx
  · exact ⟨nofun, fun ⟨h, _⟩ => absurd h hidx⟩
  · rw [Except.ok.injEq, eq_comm, not_ne_iff.1 hidx]
    simp

theorem decodeIdx_eq_ok_iff {idx : BitVec 4} {data : Word} {mk : BitVec 4 → Instr} {j : Instr} :
    decodeIdx idx data mk = .ok j ↔ data = 0 ∧ j = mk idx := by
  unfold decodeIdx
  split_ifs with hdata
  · exact ⟨nofun, fun ⟨h, _⟩ => absurd h hdata⟩
  · rw [Except.ok.injEq, eq_comm, not_ne_iff.1 hdata]
    simp

theorem decodeIdx8_eq_ok_iff {idx : BitVec 4} {data : Word} {mk : BitVec 4 → Instr} {j : Instr} :
    decodeIdx8 idx data mk = .ok j ↔ idx.toNat < 8 ∧ data = 0 ∧ j = mk idx := by
  unfold decodeIdx8
  split_ifs with hidx
  · simp [Nat.not_lt.2 hidx]
  · simp only [decodeIdx_eq_ok_iff, Nat.not_le.1 hidx, true_and]

/-! ### Decode and encode (R80) -/

/-- The decoder gives back every well-formed command. -/
theorem decode_encode {i : Instr} (hwf : i.wf = true) : decode (encode i) = .ok i := by
  cases i with
  | rdh idx => simpa [decode, encode, decodeIdx8_eq_ok_iff] using of_decide_eq_true hwf
  | rdsr idx => simpa [decode, encode, decodeIdx8_eq_ok_iff] using of_decide_eq_true hwf
  | _ => simp [decode, encode, decodePlain_eq_ok_iff, decodeData_eq_ok_iff, decodeIdx_eq_ok_iff]

/-- What the decoder accepts is the code of the well-formed command it gives. -/
theorem wf_and_encode_of_decode {w : CmdWord} {i : Instr} (h : decode w = .ok i) : i.wf = true ∧ encode i = w := by
  obtain ⟨op, idx, data, rfl⟩ := exists_cmdWord w
  simp only [decode, cmdOp_cmdWord, cmdIdx_cmdWord, cmdData_cmdWord] at h
  split at h
  next hop =>
    obtain ⟨rfl, rfl, rfl⟩ := decodePlain_eq_ok_iff.1 h
    obtain rfl : op = 1 := BitVec.eq_of_toNat_eq hop
    exact ⟨rfl, rfl⟩
  next hop =>
    obtain rfl : op = 2 := BitVec.eq_of_toNat_eq hop
    cases h
    exact ⟨rfl, rfl⟩
  next hop =>
    obtain ⟨rfl, rfl⟩ := decodeIdx_eq_ok_iff.1 h
    obtain rfl : op = 3 := BitVec.eq_of_toNat_eq hop
    exact ⟨rfl, rfl⟩
  next hop =>
    obtain ⟨rfl, rfl, rfl⟩ := decodePlain_eq_ok_iff.1 h
    obtain rfl : op = 4 := BitVec.eq_of_toNat_eq hop
    exact ⟨rfl, rfl⟩
  next hop =>
    obtain ⟨hidx, rfl, rfl⟩ := decodeIdx8_eq_ok_iff.1 h
    obtain rfl : op = 5 := BitVec.eq_of_toNat_eq hop
    exact ⟨decide_eq_true hidx, rfl⟩
  next hop =>
    obtain ⟨rfl, rfl⟩ := decodeData_eq_ok_iff.1 h
    obtain rfl : op = 6 := BitVec.eq_of_toNat_eq hop
    exact ⟨rfl, rfl⟩
  next hop =>
    obtain ⟨rfl, rfl⟩ := decodeData_eq_ok_iff.1 h
    obtain rfl : op = 7 := BitVec.eq_of_toNat_eq hop
    exact ⟨rfl, rfl⟩
  next hop =>
    obtain ⟨hidx, rfl, rfl⟩ := decodeIdx8_eq_ok_iff.1 h
    obtain rfl : op = 8 := BitVec.eq_of_toNat_eq hop
    exact ⟨decide_eq_true hidx, rfl⟩
  next hop =>
    obtain ⟨rfl, rfl, rfl⟩ := decodePlain_eq_ok_iff.1 h
    obtain rfl : op = 9 := BitVec.eq_of_toNat_eq hop
    exact ⟨rfl, rfl⟩
  next hop =>
    obtain ⟨rfl, rfl, rfl⟩ := decodePlain_eq_ok_iff.1 h
    obtain rfl : op = 10 := BitVec.eq_of_toNat_eq hop
    exact ⟨rfl, rfl⟩
  next => cases h

/-- The decoder accepts exactly the codes of the well-formed commands. -/
theorem decode_eq_ok_iff {w : CmdWord} {i : Instr} : decode w = .ok i ↔ i.wf = true ∧ encode i = w :=
  ⟨wf_and_encode_of_decode, fun ⟨hwf, hw⟩ => hw ▸ decode_encode hwf⟩

/-- Settles O1: the decoder gives back every well-formed command, case by case. -/
theorem decodeOfEncode : Obligations.DecodeOfEncode := fun _ => decode_encode

/-- Settles O2: the decoder's arms, each with the operands its form accepts. -/
theorem encodeOfDecode : Obligations.EncodeOfDecode := fun _ _ => wf_and_encode_of_decode

/-! ### The opcode map (R73, R74) -/

/-- The word of a well-formed command matches the row of its mnemonic. -/
theorem exists_row_of_wf (i : Instr) : Laws.RowMatch.Statement i := by
  cases i with
  | init => exact Laws.RowMatch.init
  | ldw idx data => exact Laws.RowMatch.ldw idx data
  | rdm idx => exact Laws.RowMatch.rdm idx
  | compress => exact Laws.RowMatch.compress
  | rdh idx => exact Laws.RowMatch.rdh idx
  | ldlenl data => exact Laws.RowMatch.ldlenl data
  | ldlenh data => exact Laws.RowMatch.ldlenh data
  | rdsr idx => exact Laws.RowMatch.rdsr idx
  | padinit => exact Laws.RowMatch.padinit
  | padblk => exact Laws.RowMatch.padblk

/-- A legal word matches the row of the command it decodes to. -/
theorem exists_row_of_decode {w : CmdWord} {i : Instr} (h : decode w = .ok i) :
    ∃ r ∈ opcodeTable, r.mnemonic = i.mnemonic ∧ matchesRow w r = true := by
  obtain ⟨hwf, rfl⟩ := wf_and_encode_of_decode h
  exact exists_row_of_wf i hwf

/-- A row matches field by field. -/
theorem matchesRow_cmdWord_iff (op idx : BitVec 4) (data : Word) (r : OpcodeRow) :
    matchesRow (cmdWord op idx data) r = true ↔
      op &&& cmdOp r.mask = cmdOp r.value ∧ idx &&& cmdIdx r.mask = cmdIdx r.value ∧
        data &&& cmdData r.mask = cmdData r.value := by
  rw [← cmdWord_inj, ← cmdWord_and, cmdWord_fields, cmdWord_fields, matchesRow, beq_iff_eq]

/-- Every row fixes all four bits of the opcode, and no other field to anything but zero. -/
theorem opcodeTable_fixes_op :
    ∀ r ∈ opcodeTable, cmdOp r.mask = BitVec.allOnes 4 ∧ cmdIdx r.value = 0 ∧ cmdData r.value = 0 := by decide

/-- A row of the map matches a word when the opcode is the row's and the masked operand bits are zero. -/
theorem matchesRow_iff_of_mem {op idx : BitVec 4} {data : Word} {r : OpcodeRow} (hr : r ∈ opcodeTable) :
    matchesRow (cmdWord op idx data) r = true ↔
      op = cmdOp r.value ∧ idx &&& cmdIdx r.mask = 0 ∧ data &&& cmdData r.mask = 0 := by
  obtain ⟨hop, hidx, hdata⟩ := opcodeTable_fixes_op r hr
  rw [matchesRow_cmdWord_iff, hop, hidx, hdata, BitVec.and_allOnes]

/-- The opcode names the row. -/
theorem opcodeTable_op_injective :
    ∀ r ∈ opcodeTable, ∀ r' ∈ opcodeTable, cmdOp r.value = cmdOp r'.value → r = r' := by decide

/-- No word matches two rows. -/
theorem row_unique {w : CmdWord} {r r' : OpcodeRow} (hr : r ∈ opcodeTable) (hr' : r' ∈ opcodeTable)
    (h : matchesRow w r = true) (h' : matchesRow w r' = true) : r = r' := by
  obtain ⟨op, idx, data, rfl⟩ := exists_cmdWord w
  obtain ⟨hop, -⟩ := (matchesRow_iff_of_mem hr).1 h
  obtain ⟨hop', -⟩ := (matchesRow_iff_of_mem hr').1 h'
  exact opcodeTable_op_injective r hr r' hr' (hop.symm.trans hop')

/-! ### The fields that must be zero (R74) -/

/-- The opcode is assigned and the fields its command does not use are zero (R74). -/
def UnusedFieldsZero (op idx : BitVec 4) (data : Word) : Prop :=
  ((op = 0x1 ∨ op = 0x4 ∨ op = 0x9 ∨ op = 0xa) ∧ idx = 0 ∧ data = 0) ∨
  op = 0x2 ∨
  (op = 0x3 ∧ data = 0) ∨
  ((op = 0x5 ∨ op = 0x8) ∧ idx.toNat < 8 ∧ data = 0) ∨
  ((op = 0x6 ∨ op = 0x7) ∧ idx = 0)

/-- The masks of the map, by opcode: all ones over a field that must be zero, `8` for an index of three bits. -/
theorem opcodeTable_masks :
    ∀ r ∈ opcodeTable,
      ((cmdOp r.value = 0x1 ∨ cmdOp r.value = 0x4 ∨ cmdOp r.value = 0x9 ∨ cmdOp r.value = 0xa) ∧
        cmdIdx r.mask = BitVec.allOnes 4 ∧ cmdData r.mask = BitVec.allOnes 32) ∨
      cmdOp r.value = 0x2 ∨
      (cmdOp r.value = 0x3 ∧ cmdData r.mask = BitVec.allOnes 32) ∨
      ((cmdOp r.value = 0x5 ∨ cmdOp r.value = 0x8) ∧ cmdIdx r.mask = 8 ∧ cmdData r.mask = BitVec.allOnes 32) ∨
      ((cmdOp r.value = 0x6 ∨ cmdOp r.value = 0x7) ∧ cmdIdx r.mask = BitVec.allOnes 4) := by decide

/-- An index is of three bits when its top bit is masked to zero. -/
theorem and_eight_eq_zero_iff (idx : BitVec 4) : idx &&& 8 = 0 ↔ idx.toNat < 8 := by revert idx; decide

/-- A word that matches a row has its unused fields zero. -/
theorem UnusedFieldsZero.of_matchesRow {op idx : BitVec 4} {data : Word} {r : OpcodeRow} (hr : r ∈ opcodeTable)
    (h : matchesRow (cmdWord op idx data) r = true) : UnusedFieldsZero op idx data := by
  obtain ⟨rfl, hidx, hdata⟩ := (matchesRow_iff_of_mem hr).1 h
  rcases opcodeTable_masks r hr with ⟨hop, hi, hd⟩ | hop | ⟨hop, hd⟩ | ⟨hop, hi, hd⟩ | ⟨hop, hi⟩
  · rw [hi, BitVec.and_allOnes] at hidx
    rw [hd, BitVec.and_allOnes] at hdata
    exact .inl ⟨hop, hidx, hdata⟩
  · exact .inr (.inl hop)
  · rw [hd, BitVec.and_allOnes] at hdata
    exact .inr (.inr (.inl ⟨hop, hdata⟩))
  · rw [hi, and_eight_eq_zero_iff] at hidx
    rw [hd, BitVec.and_allOnes] at hdata
    exact .inr (.inr (.inr (.inl ⟨hop, hidx, hdata⟩)))
  · rw [hi, BitVec.and_allOnes] at hidx
    exact .inr (.inr (.inr (.inr ⟨hop, hidx⟩)))

/-- A word whose unused fields are zero is the code of a well-formed command. -/
theorem UnusedFieldsZero.exists_encode {op idx : BitVec 4} {data : Word} (h : UnusedFieldsZero op idx data) :
    ∃ i : Instr, i.wf = true ∧ encode i = cmdWord op idx data := by
  rcases h with ⟨rfl | rfl | rfl | rfl, rfl, rfl⟩ | rfl | ⟨rfl, rfl⟩ | ⟨rfl | rfl, hidx, rfl⟩ | ⟨rfl | rfl, rfl⟩
  · exact ⟨.init, rfl, rfl⟩
  · exact ⟨.compress, rfl, rfl⟩
  · exact ⟨.padinit, rfl, rfl⟩
  · exact ⟨.padblk, rfl, rfl⟩
  · exact ⟨.ldw idx data, rfl, rfl⟩
  · exact ⟨.rdm idx, rfl, rfl⟩
  · exact ⟨.rdh idx, decide_eq_true hidx, rfl⟩
  · exact ⟨.rdsr idx, decide_eq_true hidx, rfl⟩
  · exact ⟨.ldlenl data, rfl, rfl⟩
  · exact ⟨.ldlenh data, rfl, rfl⟩

/-- A word is legal, matches a row, and has its unused fields zero, together. -/
theorem legal_tfae (op idx : BitVec 4) (data : Word) :
    [∃ i, decode (cmdWord op idx data) = .ok i,
      ∃ r ∈ opcodeTable, matchesRow (cmdWord op idx data) r = true,
      UnusedFieldsZero op idx data].TFAE := by
  tfae_have 1 → 2 := fun ⟨_, h⟩ =>
    let ⟨r, hr, _, hm⟩ := exists_row_of_decode h
    ⟨r, hr, hm⟩
  tfae_have 2 → 3 := fun ⟨_, hr, hm⟩ => .of_matchesRow hr hm
  tfae_have 3 → 1 := fun h =>
    let ⟨i, hi⟩ := h.exists_encode
    ⟨i, decode_eq_ok_iff.2 hi⟩
  tfae_finish

theorem exists_decode_iff_unusedFieldsZero (op idx : BitVec 4) (data : Word) :
    (∃ i, decode (cmdWord op idx data) = .ok i) ↔ UnusedFieldsZero op idx data :=
  (legal_tfae op idx data).out 0 2

/-- A word is legal exactly when it matches a row. -/
theorem exists_decode_iff_exists_row (w : CmdWord) :
    (∃ i, decode w = .ok i) ↔ ∃ r ∈ opcodeTable, matchesRow w r = true := by
  obtain ⟨op, idx, data, rfl⟩ := exists_cmdWord w
  exact (legal_tfae op idx data).out 0 1

/-- Settles O3: legality by `legal_tfae`, uniqueness because the opcode names the row. -/
theorem legalIffExactlyOneRowMatches : Obligations.LegalIffExactlyOneRowMatches := fun w =>
  ⟨exists_decode_iff_exists_row w, fun _ hr _ hr' => row_unique hr hr', fun _ => exists_row_of_decode⟩

theorem getLsbD_three_eq_false_iff (idx : BitVec 4) : idx.getLsbD 3 = false ↔ idx.toNat < 8 := by revert idx; decide

/-- Settles O4: each clause is `UnusedFieldsZero` at its opcode. -/
theorem unusedFieldsMustBeZero : Obligations.UnusedFieldsMustBeZero := by
  intro idx data
  simp only [exists_decode_iff_unusedFieldsZero, getLsbD_three_eq_false_iff]
  refine ⟨?plain, ?rdm, ?idx8, ?data, ?ldw, ?masks⟩
  case plain => rintro op (rfl | rfl | rfl | rfl) <;> simp [UnusedFieldsZero]
  case rdm => simp [UnusedFieldsZero]
  case idx8 => rintro op (rfl | rfl) <;> simp [UnusedFieldsZero, and_comm]
  case data => rintro op (rfl | rfl) <;> simp [UnusedFieldsZero]
  case ldw => exact decode_encode (i := .ldw idx data) rfl
  case masks => exact fun op => (legal_tfae op idx data).out 2 1

/-- Settles O7: the decoder computes each of the words. -/
theorem specWordsDecodeAsTheSpecSays : Obligations.SpecWordsDecodeAsTheSpecSays :=
  ⟨rfl, rfl, rfl, rfl, rfl, rfl, rfl, rfl, rfl, rfl, rfl, rfl, rfl, rfl⟩

end Sys2Proof
end

section
/-! The command port: what a step does with a command word, and that every command is answered once (30_encoding.md R71,
R72, R77, R80). -/

namespace Sys2Proof.Machine

/-! ### A step with a move on the port -/

/-- A step that finds a command word on the port takes it and accepts it (R71). -/
theorem step_of_port_command {s : State} {w : CmdWord} {rest : List HostMove} (h : s.port = .command w :: rest) :
    step s = acceptWord w { s with port := rest } := by
  simp only [step, takeMove, h]

/-- A step that finds a reset on the port takes it (R190). -/
theorem step_of_port_reset {s : State} {rest : List HostMove} (h : s.port = .reset :: rest) :
    step s = .next (resetDevice { s with port := rest }) := by
  simp only [step, takeMove, h]

/-- A step that finds a command cut by reset on the port leaves the reset state (R192). -/
theorem step_of_port_commandCut {s : State} {w : CmdWord} {rest : List HostMove} (h : s.port = .commandCut w :: rest) :
    step s = .next (resetDevice { s with port := rest }) := by
  simp only [step, takeMove, h]

/-- A legal word is carried out (R80). -/
theorem acceptWord_of_decode {w : CmdWord} {i : Instr} (h : decode w = .ok i) (s : State) : acceptWord w s = exec i s := by
  simp only [acceptWord, h]

/-- A word that is not legal is refused, and nothing else happens (R77). -/
theorem refusesWord_of_illegal {w : CmdWord} (h : ¬ ∃ i, decode w = .ok i) (s : State) : RefusesWord w s := by
  rcases acceptWord_cases w s with ⟨i, hi, -⟩ | ⟨-, -, ha⟩
  · exact absurd ⟨i, hi⟩ h
  · exact ha

/-- What `decodeTableWord` reads from a word of 40 bits is what the decoder gives (R79). -/
theorem decode_tableWord {w : Nat} {i : Instr} (h : decodeTableWord 40 w = some i) : decode (tableWord 40 w) = .ok i := by
  rw [decodeTableWord, if_pos (Nat.mod_lt w (Nat.two_pow_pos 40))] at h
  cases hd : decode (tableWord 40 w) with
  | ok j =>
    rw [hd] at h
    exact congrArg Except.ok (Option.some.inj h)
  | error e =>
    rw [hd] at h
    cases h

/-- Settles O6: `step_of_port_command`, then the legal word is carried out. -/
theorem stepRunsDecodedCommand : Obligations.StepRunsDecodedCommand := by
  refine ⟨fun s w rest i hport hd => ?_, fun s w i hd => ?_⟩
  · rw [step_of_port_command hport, acceptWord_of_decode hd]
  · have hport : (s.withFetchWord 40 w).port = .command (tableWord 40 w) :: s.port := rfl
    rw [step_of_port_command hport, acceptWord_of_decode (decode_tableWord hd)]
    rfl

/-- A word that matches no row is refused (R77). -/
theorem refusesWord_of_no_row {w : CmdWord} (h : ∀ r ∈ opcodeTable, matchesRow w r = false) (s : State) :
    RefusesWord w s := by
  refine refusesWord_of_illegal (fun hlegal => ?_) s
  obtain ⟨r, hr, hm⟩ := (exists_decode_iff_exists_row w).1 hlegal
  exact Bool.false_ne_true ((h r hr).symm.trans hm)

/-- A word whose unused fields are not all zero, or whose opcode is not assigned, matches no row (R74, R77). -/
theorem no_row_of_not_unusedFieldsZero {op idx : BitVec 4} {data : Word} (h : ¬ UnusedFieldsZero op idx data) :
    ∀ r ∈ opcodeTable, matchesRow (cmdWord op idx data) r = false :=
  fun _ hr => Bool.eq_false_iff.2 fun hm => h (.of_matchesRow hr hm)

/-- Settles O5: the step refuses what matches no row, and each listed word violates `UnusedFieldsZero` at its opcode. -/
theorem illegalWordAnsweredAndChangesNothing : Obligations.IllegalWordAnsweredAndChangesNothing := by
  intro s w rest hport
  refine ⟨fun hno => ?_, ?_, by decide⟩
  · rw [step_of_port_command hport]
    exact refusesWord_of_no_row hno _
  · obtain ⟨op, idx, data, rfl⟩ := exists_cmdWord w
    simp only [cmdOp_cmdWord, cmdIdx_cmdWord, cmdData_cmdWord]
    refine fun hbad => no_row_of_not_unusedFieldsZero fun hzero => ?_
    rcases hzero with ⟨hop, rfl, rfl⟩ | rfl | ⟨rfl, rfl⟩ | ⟨hop, hidx, rfl⟩ | ⟨hop, rfl⟩
    · rcases hop with rfl | rfl | rfl | rfl <;> simp at hbad
    · simp at hbad
    · simp at hbad
    · have hge : 8 ≤ idx.toNat := by rcases hop with rfl | rfl <;> simpa using hbad
      exact Nat.not_lt.2 hge hidx
    · rcases hop with rfl | rfl <;> simp at hbad

/-! ### The response -/

/-- A command is answered `OK`, with data only if it reads a word, or with another code and data 0 (R72, R170). -/
theorem Effect.rsp_cases {i : Instr} {s t : State} (h : Effect s i t) :
    (∃ v, t.rsp = some ⟨.ok, v⟩ ∧ (readsWord i = false → v = 0)) ∨ ∃ c, t.rsp = some ⟨c, 0⟩ := by
  cases h with
  | rdmKnown => exact .inl ⟨_, respondOk_rsp _ _, nofun⟩
  | rdmUnknown => exact .inl ⟨_, respondOk_rsp _ _, nofun⟩
  | rdhKnown => exact .inl ⟨_, respondOk_rsp _ _, nofun⟩
  | rdhUnknown => exact .inl ⟨_, respondOk_rsp _ _, nofun⟩
  | rdsrView => exact .inl ⟨_, respondOk_rsp _ _, nofun⟩
  | rdhIllegal => exact .inr ⟨_, raiseCode_rsp _ _⟩
  | rdsrIllegal => exact .inr ⟨_, raiseCode_rsp _ _⟩
  | padinitError => exact .inr ⟨_, raiseCode_rsp _ _⟩
  | padblkError => exact .inr ⟨_, raiseCode_rsp _ _⟩
  | padblkSequence => exact .inr ⟨_, raiseCode_rsp _ _⟩
  | _ => exact .inl ⟨0, respondOk_rsp _ _, fun _ => rfl⟩

/-- The response word as a number (R72). -/
theorem Response.word_toNat (r : Response) : r.word.toNat = r.code.number.toNat * 2 ^ 32 + r.rdata.toNat := by
  rw [Response.word, BitVec.toNat_append, ← Nat.shiftLeft_add_eq_or_of_lt r.rdata.isLt, Nat.shiftLeft_eq]

/-- The numbers of the codes are 0 to 3 (R170). -/
theorem RspCode.number_le (c : RspCode) : c.number.toNat ≤ 3 := by cases c <;> decide

/-- Settles O8: the effects' responses, and the response word. -/
theorem everyCommandGivesOneResponse : Obligations.EveryCommandGivesOneResponse := by
  refine ⟨fun i s t h => ?_, fun r => ⟨r.word_toNat, r.code.number_le⟩, rfl, rfl, rfl, rfl⟩
  rcases (exec_eq_next_iff.1 h).rsp_cases with ⟨v, hrsp, hv⟩ | ⟨c, hrsp⟩
  · exact ⟨_, hrsp, fun hc => absurd rfl hc, hv⟩
  · exact ⟨_, hrsp, fun _ => rfl, fun _ => rfl⟩

/-! ### Every command word is answered -/

/-- In a state that meets the invariant every command has an effect: `PADBLK` does not stop (R184). -/
theorem exists_effect_of_inv {s : State} (hinv : Inv s) (i : Instr) : ∃ t, Effect s i t := by
  rcases exists_effect_or_fault i s with h | ⟨rfl, hf⟩
  · exact h
  · obtain ⟨-, hsafe⟩ := padblkFaultsOnlyOnMissingAddress s
    exact absurd hf (hsafe hinv)

/-- In a state that meets the invariant the port answers every word and leaves the other moves (R71). -/
theorem acceptWord_answers {s : State} (hinv : Inv s) (w : CmdWord) :
    ∃ t r, acceptWord w s = .next t ∧ t.rsp = some r ∧ t.port = s.port := by
  rcases acceptWord_cases w s with ⟨i, -, ha⟩ | ⟨-, -, ha⟩
  · obtain ⟨t, he⟩ := exists_effect_of_inv hinv i
    rcases he.rsp_cases with ⟨v, hrsp, -⟩ | ⟨c, hrsp⟩
    · exact ⟨t, _, ha.trans he.exec_eq, hrsp, he.port_eq⟩
    · exact ⟨t, _, ha.trans he.exec_eq, hrsp, he.port_eq⟩
  · exact ⟨_, _, ha, raiseCode_rsp _ _, raiseCode_port _ _⟩

/-- The invariant does not speak of the host's moves. -/
theorem Inv.with_port {s : State} (hinv : Inv s) (rest : List HostMove) : Inv { s with port := rest } :=
  ⟨hinv.generator, hinv.sequencer, hinv.response, hinv.message⟩

/-- Under the invariant a step answers the command word on the port. -/
theorem step_answers_command {s : State} (hinv : Inv s) {w : CmdWord} {rest : List HostMove}
    (hport : s.port = .command w :: rest) : ∃ t r, step s = .next t ∧ t.rsp = some r ∧ t.port = rest := by
  rw [step_of_port_command hport]
  exact acceptWord_answers (hinv.with_port rest) w

/-- Settles O54: a command word is answered, and the host's other moves always go on. -/
theorem everyCommandWordIsAnswered : Obligations.EveryCommandWordIsAnswered := by
  intro s hinv
  refine ⟨?_, fun w rest => step_answers_command hinv⟩
  cases hport : s.port with
  | nil => exact ⟨s, step_of_port_nil hport⟩
  | cons move rest =>
    cases move with
    | command w =>
      obtain ⟨t, -, ht, -⟩ := step_answers_command hinv hport
      exact ⟨t, ht⟩
    | reset => exact ⟨_, step_of_port_reset hport⟩
    | commandCut w => exact ⟨_, step_of_port_commandCut hport⟩
    | storeByte a b => exact ⟨_, step_of_port_storeByte hport⟩

end Sys2Proof.Machine
end

section
/-! The block count and the padded stream as a whole: message, delimiter, zeros, bit length (40_padding_generator.md R90
to R94, R101). -/

namespace Sys2Proof.Machine

/-! ### The block count (R92, R93) -/

theorem blockCount_pos (L : Nat) : 1 ≤ blockCount L := Nat.le_add_left 1 _

/-- The block count is the least number of blocks with room for the message, the delimiter and the length (R92). -/
theorem blockCount_le_iff {L n : Nat} : blockCount L ≤ n ↔ L + 9 ≤ 64 * n := by
  unfold blockCount; omega

theorem add_nine_le_blockCount (L : Nat) : L + 9 ≤ 64 * blockCount L := blockCount_le_iff.1 le_rfl

/-- Settles O28: `blockCount_le_iff`, and the second form by the remainder of `L`. -/
theorem blockCountIsLeast : Obligations.BlockCountIsLeast := by
  refine ⟨fun L => ⟨rfl, fun hr => ?_, fun hr => ?_, add_nine_le_blockCount L, fun n => blockCount_le_iff.2⟩, by decide⟩
  · unfold blockCount; omega
  · unfold blockCount; omega

/-- Settles O29: the bounds follow from that of the length and of the block count. -/
theorem lengthArithmeticFitsIn64Bits : Obligations.LengthArithmeticFitsIn64Bits := by
  intro L hL
  have hN : blockCount L ≤ 2 ^ 52 + 1 := blockCount_le hL
  have hroom := add_nine_le_blockCount L
  have hleast : 64 * (blockCount L - 1) ≤ L + 8 := by unfold blockCount; omega
  omega

/-! ### The padded stream (R94, R101) -/

/-- Between the delimiter and the length the stream is zero (R94). -/
theorem padByte_of_zeros (mem : Memory) {L p : Nat} (hlo : L < p) (hhi : p < 64 * blockCount L - 8) :
    padByte mem L p = 0x00 := by
  rw [padByte, if_neg (by omega), if_neg (by omega), if_pos hhi]

/-- Settles O30: one lemma for each case of R94. -/
theorem paddedStreamFourCases : Obligations.PaddedStreamFourCases := by
  intro mem L p _
  refine ⟨padByte_of_lt mem, ?_, padByte_of_zeros mem, fun hp => ⟨?_, ?_⟩⟩
  · rintro rfl
    exact padByte_self mem p
  · have hroom := add_nine_le_blockCount L
    omega
  · rw [padByte_of_length mem hp, BitVec.toNat_ofNat, Nat.shiftRight_eq_div_pow]

/-- Byte `i` of the length field is byte `i` of the 64-bit number `8 L`, most significant first (R101). -/
theorem padByte_length_byte (mem : Memory) {L i : Nat} (hL : L ≤ 2 ^ 58) (hi : i < 8) :
    padByte mem L (64 * blockCount L - 8 + i) = (BitVec.ofNat 64 (8 * L)).extractLsb' (8 * (7 - i)) 8 := by
  have hN := blockCount_pos L
  have hbits : (BitVec.ofNat 64 (8 * L)).toNat = 8 * L := by
    rw [BitVec.toNat_ofNat]
    omega
  have hplace : 64 * blockCount L - 1 - (64 * blockCount L - 8 + i) = 7 - i := by omega
  rw [padByte_of_length mem (by omega), hplace, BitVec.extractLsb', hbits]

/-- The stream is cut at the end of the message, after the delimiter, and eight bytes before its end. -/
theorem range_padded (L : Nat) :
    List.range (64 * blockCount L) = List.range L ++ [L] ++
      (List.range (64 * blockCount L - 9 - L)).map (L + 1 + ·) ++ (List.range 8).map (64 * blockCount L - 8 + ·) := by
  have hroom := add_nine_le_blockCount L
  have hzeros : L + 1 + (64 * blockCount L - 9 - L) = 64 * blockCount L - 8 := by omega
  rw [← List.range_succ, ← List.range_add, hzeros, ← List.range_add, Nat.sub_add_cancel (by omega)]

/-- Settles O31: the parts of `range_padded`, each by its case of the stream. -/
theorem paddedStreamMeetsContract : Obligations.PaddedStreamMeetsContract := by
  intro mem L hL
  refine ⟨?_, ?_, blockCount_pos L⟩
  · have hroom := add_nine_le_blockCount L
    have hmessage : (List.range L).map (padByte mem L) = (List.range L).map mem.read :=
      List.map_congr_left fun p hp => padByte_of_lt mem (List.mem_range.1 hp)
    have hzeros : (List.range (64 * blockCount L - 9 - L)).map (fun i => padByte mem L (L + 1 + i)) =
        List.replicate (64 * blockCount L - 9 - L) 0x00 := by
      rw [List.map_eq_replicate_iff.2, List.length_range]
      intro i hi
      have hlt := List.mem_range.1 hi
      exact padByte_of_zeros mem (by omega) (by omega)
    have hlength : (List.range 8).map (fun i => padByte mem L (64 * blockCount L - 8 + i)) =
        (List.range 8).map fun i => (BitVec.ofNat 64 (8 * L)).extractLsb' (8 * (7 - i)) 8 :=
      List.map_congr_left fun i hi => padByte_length_byte mem hL (List.mem_range.1 hi)
    rw [range_padded]
    simp only [List.map_append, List.map_map, Function.comp_def, List.map_cons, List.map_nil, padByte_self]
    rw [hmessage, hzeros, hlength]
  · rw [List.length_map, List.length_range]
    exact ⟨blockCount L, by omega⟩

end Sys2Proof.Machine
end

section
/-! The sequencer's clock: `PHASE` and `T` move by a rule of their own, whatever the data, and rest again after the 130
steps of one `COMPRESS` (42_compression_engine.md R140, 10_state.md R24). -/

namespace Sys2Proof.Machine

/-- `PHASE` and `T` together. -/
def sequencer (s : State) : Phase × Fin 64 := (s.phase, s.t)

/-- What one internal step does to `PHASE` and `T` (R140). -/
def sequencerTick : Phase × Fin 64 → Phase × Fin 64
  | (.idle, t) => (.idle, t)
  | (.sched, t) => if t = 63 then (.seed, 0) else (.sched, t + 1)
  | (.seed, _) => (.round, 0)
  | (.round, t) => if t = 63 then (.fold, 0) else (.round, t + 1)
  | (.fold, _) => (.idle, 0)

theorem sequencer_advanceT (p : Phase) (s : State) :
    sequencer (advanceT p s) = if s.t = 63 then (p, 0) else (s.phase, s.t + 1) := by
  unfold advanceT; split <;> rfl

/-- One internal step ticks the clock (R140). -/
theorem sequencer_engineStep (s : State) : sequencer (engineStep s) = sequencerTick (sequencer s) := by
  cases hp : s.phase with
  | idle => simp only [engineStep, sequencer, hp, sequencerTick]
  | sched => simp only [engineStep, hp, sequencer_advanceT]; simp only [sequencer, hp, sequencerTick]
  | seed => rw [engineStep_seed hp]; simp only [sequencer, hp, sequencerTick]
  | round => simp only [engineStep, hp, sequencer_advanceT]; simp only [sequencer, hp, sequencerTick]
  | fold => rw [engineStep_fold hp]; simp only [sequencer, hp, sequencerTick]

/-- So do any number of internal steps. -/
theorem sequencer_engineRun (n : Nat) (s : State) : sequencer (engineRun n s) = sequencerTick^[n] (sequencer s) := by
  induction n with
  | zero => rfl
  | succ n ih => rw [engineRun_succ, sequencer_engineStep, ih, Function.iterate_succ_apply']

/-- The schedule phase takes 64 ticks (R140). -/
theorem sequencerTick_iterate_sched : sequencerTick^[64] (.sched, 0) = (.seed, 0) := by decide

/-- The rounds take 64 ticks (R140). -/
theorem sequencerTick_iterate_round : sequencerTick^[64] (.round, 0) = (.fold, 0) := by decide

/-- The schedule, the seed, the rounds and the fold of one `COMPRESS` end at rest (R140). -/
theorem sequencerTick_iterate_compress : sequencerTick^[1 + (64 + (1 + 64))] (.sched, 0) = (.idle, 0) := by
  rw [Function.iterate_add_apply, Function.iterate_add_apply, Function.iterate_add_apply, sequencerTick_iterate_sched,
    Function.iterate_one, sequencerTick, sequencerTick_iterate_round, sequencerTick]

/-- After `COMPRESS` the sequencer rests (R24). -/
theorem sequencerOk_compressRun (s : State) : sequencerOk (compressRun s) := by
  have h : sequencer (compressRun s) = (.idle, 0) := by
    rw [compressRun_eq, sequencer_engineRun]
    exact sequencerTick_iterate_compress
  exact Prod.ext_iff.1 h

end Sys2Proof.Machine
end

section
/-! The invariant of a command boundary: what each command and each move of the host does to it (40_padding_generator.md
R100, 10_state.md R24, 60_exceptions.md R170). -/

namespace Sys2Proof.Machine

/-! ### The generator's invariants, state by state (R100) -/

theorem generatorOk_idle {s : State} (hp : s.pstate = .idle) : generatorOk s ↔ s.blk = 0 := by
  rw [generatorOk, hp]

theorem generatorOk_armed {s : State} (hp : s.pstate = .armed) :
    generatorOk s ↔ s.len.toNat ≤ Config.maxLen ∧ s.blk.toNat < blockCount s.len.toNat := by
  rw [generatorOk, hp]

theorem generatorOk_done {s : State} (hp : s.pstate = .done) :
    generatorOk s ↔ s.len.toNat ≤ Config.maxLen ∧ s.blk.toNat = blockCount s.len.toNat := by
  rw [generatorOk, hp]

theorem generatorOk_error {s : State} (hp : s.pstate = .error) :
    generatorOk s ↔ Config.maxLen < s.len.toNat ∧ s.blk = 0 := by
  rw [generatorOk, hp]

/-- The generator's invariants speak of `LEN`, `BLK` and `PSTATE` alone. -/
theorem generatorOk_of_sameGenerator {s t : State} (h : sameGenerator s t) (hok : generatorOk s) : generatorOk t := by
  obtain ⟨hlen, hblk, hp⟩ := h
  rw [generatorOk, hlen, hblk, hp]
  exact hok

/-- With a length above the bound the generator is not armed and has not been (R103). -/
theorem pstate_of_length_above {s : State} (hok : generatorOk s) (hL : Config.maxLen < s.len.toNat) :
    s.pstate = .idle ∨ s.pstate = .error := by
  cases hp : s.pstate with
  | idle => exact .inl rfl
  | error => exact .inr rfl
  | armed => exact absurd hL (Nat.not_lt.2 ((generatorOk_armed hp).1 hok).1)
  | done => exact absurd hL (Nat.not_lt.2 ((generatorOk_done hp).1 hok).1)

/-! ### `PADBLK` in `ARMED` -/

/-- `BLK` does not wrap: below the block count of an accepted length there is room for one more (R93). -/
theorem toNat_blk_add_one {s : State} (hp : s.pstate = .armed) (hok : generatorOk s) :
    (s.blk + 1).toNat = s.blk.toNat + 1 := by
  obtain ⟨hL, hblk⟩ := (generatorOk_armed hp).1 hok
  have hN := blockCount_le hL
  rw [BitVec.toNat_add]
  exact Nat.mod_eq_of_lt (by simp; omega)

/-- The state `PADBLK` leaves when it is armed (R99). -/
def blockProduced (s : State) : State :=
  respondOk 0 (advanceBlock (writeBlock (padBlock s.msg s.len.toNat s.blk.toNat) s))

/-- The command that gives it. -/
theorem effect_blockProduced {s : State} (hp : s.pstate = .armed) (hok : generatorOk s) :
    Effect s .padblk (blockProduced s) :=
  .padblkBlock hp (padReads_exist ((generatorOk_armed hp).1 hok).1)

theorem blockProduced_blk {s : State} (hp : s.pstate = .armed) (hok : generatorOk s) :
    (blockProduced s).blk.toNat = s.blk.toNat + 1 := by
  rw [blockProduced, respondOk_blk, advanceBlock_blk, writeBlock_blk, toNat_blk_add_one hp hok]

/-- `DONE` with the last block, `ARMED` before it (R99). -/
theorem blockProduced_pstate {s : State} (hp : s.pstate = .armed) (hok : generatorOk s) :
    (blockProduced s).pstate = if s.blk.toNat + 1 = blockCount s.len.toNat then .done else .armed := by
  rw [blockProduced, respondOk_pstate, advanceBlock_pstate, writeBlock_blk, writeBlock_len, writeBlock_pstate,
    toNat_blk_add_one hp hok, hp]

@[simp] theorem blockProduced_len (s : State) : (blockProduced s).len = s.len := by simp [blockProduced]
@[simp] theorem blockProduced_m (s : State) :
    (blockProduced s).m = padBlock s.msg s.len.toNat s.blk.toNat := by simp [blockProduced]
@[simp] theorem blockProduced_mKnown (s : State) : (blockProduced s).mKnown = Vector.replicate 16 true := by
  simp [blockProduced]
@[simp] theorem blockProduced_msg (s : State) : (blockProduced s).msg = s.msg := by simp [blockProduced]
@[simp] theorem blockProduced_rsp (s : State) : (blockProduced s).rsp = some ⟨.ok, 0⟩ := by simp [blockProduced]

/-- The block moves `BLK` on, to the count with the last one. -/
theorem generatorOk_blockProduced {s : State} (hp : s.pstate = .armed) (hok : generatorOk s) :
    generatorOk (blockProduced s) := by
  obtain ⟨hL, hlt⟩ := (generatorOk_armed hp).1 hok
  have hblk := blockProduced_blk hp hok
  have hpstate := blockProduced_pstate hp hok
  split at hpstate
  case isTrue hlast =>
    rw [generatorOk_done hpstate, blockProduced_len]
    exact ⟨hL, hblk.trans hlast⟩
  case isFalse hlast =>
    rw [generatorOk_armed hpstate, blockProduced_len]
    exact ⟨hL, by omega⟩

/-! ### Every command keeps the invariant -/

/-- Every command keeps the generator's invariants (R100). -/
theorem Effect.keeps_generatorOk {i : Instr} {s t : State} (h : Effect s i t) (hok : generatorOk s) :
    generatorOk t := by
  cases h with
  | ldlenl => exact (generatorOk_idle (by simp)).2 (by simp)
  | ldlenh => exact (generatorOk_idle (by simp)).2 (by simp)
  | padinitError hL => exact (generatorOk_error (by simp)).2 ⟨by simpa using hL, by simp⟩
  | padinitArm hL => exact (generatorOk_armed (by simp)).2 ⟨by simpa using hL, blockCount_pos _⟩
  | padblkBlock hp => exact generatorOk_blockProduced hp hok
  | _ => exact generatorOk_of_sameGenerator (by simp [sameGenerator]) hok

/-- The sequencer rests after every command (10_state.md R24). -/
theorem Effect.keeps_sequencerOk {i : Instr} {s t : State} (h : Effect s i t) (hok : sequencerOk s) :
    sequencerOk t := by
  cases h with
  | compressKnown =>
    obtain ⟨hphase, ht⟩ := sequencerOk_compressRun s
    exact ⟨by simp [hphase], by simp [ht]⟩
  | _ =>
    obtain ⟨hphase, ht⟩ := hok
    exact ⟨by simp [hphase], by simp [ht]⟩

/-- Every response meets R170, whatever the state. -/
theorem Effect.leaves_responseOk {i : Instr} {s t : State} (h : Effect s i t) : responseOk t := by
  intro r hr hc
  rcases h.rsp_cases with ⟨v, hrsp, -⟩ | ⟨c, hrsp⟩
  · obtain rfl := Option.some.inj (hrsp.symm.trans hr)
    exact absurd rfl hc
  · obtain rfl := Option.some.inj (hrsp.symm.trans hr)
    rfl

/-- Every command keeps the invariant. -/
theorem Effect.keeps_inv {i : Instr} {s t : State} (h : Effect s i t) (hinv : Inv s) : Inv t :=
  ⟨h.keeps_generatorOk hinv.generator, h.keeps_sequencerOk hinv.sequencer, h.leaves_responseOk,
    by rw [h.msg_eq]; exact hinv.message⟩

/-! ### Every move of the host keeps the invariant -/

/-- An error answer keeps the invariant (60_exceptions.md R176). -/
theorem inv_raiseCode {s : State} (c : RspCode) (hinv : Inv s) : Inv (raiseCode c s) where
  generator := generatorOk_of_sameGenerator (by simp [sameGenerator]) hinv.generator
  sequencer := hinv.sequencer
  response := by
    intro r hr _
    obtain rfl := Option.some.inj hr
    rfl
  message := hinv.message

/-- Whatever the word, the port keeps the invariant (60_exceptions.md R175). -/
theorem inv_of_acceptWord {w : CmdWord} {s t : State} (hinv : Inv s) (h : acceptWord w s = .next t) : Inv t := by
  rcases acceptWord_cases w s with ⟨i, -, ha⟩ | ⟨-, -, ha⟩
  · exact (exec_eq_next_iff.1 (ha.symm.trans h)).keeps_inv hinv
  · obtain rfl := Host.Outcome.next.inj (ha.symm.trans h)
    exact inv_raiseCode _ hinv

/-- Reset establishes all of the invariant but the canonical form of `MSG`, which it keeps (R37; log 7). -/
theorem inv_resetDevice {s : State} (hmsg : s.msg.wf = true) : Inv (resetDevice s) where
  generator := (generatorOk_idle rfl).2 rfl
  sequencer := ⟨rfl, rfl⟩
  response := fun _ hr => nomatch hr
  message := hmsg

/-- A store of the host at an address that exists keeps the invariant (log 9). -/
theorem inv_storeByte {s : State} (hinv : Inv s) (a : BitVec 58) (b : Byte) (rest : List HostMove) :
    Inv { s with msg := s.msg.write a.toNat b, port := rest } :=
  ⟨hinv.generator, hinv.sequencer, hinv.response, Memory.write_wf hinv.message a.isLt⟩

/-- Settles O53: each move of the host keeps the invariant; a command does because every effect does. -/
theorem stepKeepsInvariant : Obligations.StepKeepsInvariant := by
  intro s t hinv h
  cases hport : s.port with
  | nil =>
    obtain rfl := Host.Outcome.next.inj ((step_of_port_nil hport).symm.trans h)
    exact hinv
  | cons move rest =>
    cases move with
    | command w => exact inv_of_acceptWord (hinv.with_port rest) ((step_of_port_command hport).symm.trans h)
    | reset =>
      obtain rfl := Host.Outcome.next.inj ((step_of_port_reset hport).symm.trans h)
      exact inv_resetDevice hinv.message
    | commandCut w =>
      obtain rfl := Host.Outcome.next.inj ((step_of_port_commandCut hport).symm.trans h)
      exact inv_resetDevice hinv.message
    | storeByte a b =>
      obtain rfl := Host.Outcome.next.inj ((step_of_port_storeByte hport).symm.trans h)
      exact inv_storeByte hinv a b rest

/-- Settles O52: the control state of R37, and an empty `MSG`. -/
theorem resetMeetsInvariant : Obligations.ResetMeetsInvariant where
  generator := (generatorOk_idle rfl).2 rfl
  sequencer := ⟨rfl, rfl⟩
  response := fun _ hr => nomatch hr
  message := Memory.reset_wf

end Sys2Proof.Machine
end

section
/-! The generator's commands: the two length loads and `PADINIT`, `PADBLK` block by block, and the transition table of
`PSTATE` (40_padding_generator.md R96 to R103). -/

namespace Sys2Proof.Machine

/-! ### The two halves of a 64-bit register (00_scope.md R6) -/

theorem lowHalf_append (hi lo : Word) : lowHalf (hi ++ lo) = lo := by
  rw [lowHalf, BitVec.extractLsb'_append_eq_right]

theorem highHalf_append (hi lo : Word) : highHalf (hi ++ lo) = hi := by
  rw [highHalf, BitVec.extractLsb'_append_eq_left]

/-- A 64-bit value is its two halves as a number. -/
theorem toNat_append_words (hi lo : Word) : (hi ++ lo : DWord).toNat = hi.toNat * 2 ^ 32 + lo.toNat := by
  rw [BitVec.toNat_append, ← Nat.shiftLeft_add_eq_or_of_lt lo.isLt, Nat.shiftLeft_eq]

theorem toNat_lowHalf (v : DWord) : (lowHalf v).toNat = v.toNat % 2 ^ 32 := by simp [lowHalf]

theorem toNat_highHalf (v : DWord) : (highHalf v).toNat = v.toNat / 2 ^ 32 := by
  have hv := v.isLt
  rw [highHalf, BitVec.extractLsb'_toNat, Nat.shiftRight_eq_div_pow]
  exact Nat.mod_eq_of_lt (by omega)

/-- The word loaded is the low half, and the high half stays (R96). -/
theorem toNat_withLowHalf (v : DWord) (data : Word) :
    (withLowHalf v data).toNat % 2 ^ 32 = data.toNat ∧ (withLowHalf v data).toNat / 2 ^ 32 = v.toNat / 2 ^ 32 := by
  have hdata := data.isLt
  rw [withLowHalf, toNat_append_words, toNat_highHalf]
  omega

/-- The word loaded is the high half, and the low half stays (R97). -/
theorem toNat_withHighHalf (v : DWord) (data : Word) :
    (withHighHalf v data).toNat / 2 ^ 32 = data.toNat ∧ (withHighHalf v data).toNat % 2 ^ 32 = v.toNat % 2 ^ 32 := by
  rw [withHighHalf, toNat_append_words, toNat_lowHalf]
  omega

/-! ### Frames and refusals -/

/-- A generator command but `PADBLK` writes nothing but the generator's registers and the response (R96 to R98). -/
theorem Effect.keeps_all_but_generator {i : Instr} {s t : State} (h : Effect s i t) (hi : usesEngine i = false)
    (hp : i ≠ .padblk) :
    sameRunningState s t ∧ sameBlock s t ∧ sameHidden s t ∧ sameMemory s t ∧ samePort s t := by
  have hcompress : i ≠ .compress := by rintro rfl; cases hi
  refine ⟨h.keeps_runningState (by rintro rfl; cases hi) hcompress,
    h.keeps_block (by rintro _ _ rfl; cases hi) hp, h.keeps_hidden hcompress, fun a => by rw [h.msg_eq], h.port_eq⟩

/-- A length load with a non-zero index is refused (30_encoding.md R74, R77). -/
theorem refusesWord_of_unusedIdx {op idx : BitVec 4} (hop : op = 0x6 ∨ op = 0x7) (hidx : idx ≠ 0) (data : Word)
    (s : State) : RefusesWord (cmdWord op idx data) s := by
  refine refusesWord_of_no_row (no_row_of_not_unusedFieldsZero ?_) s
  rcases hop with rfl | rfl <;> simpa [UnusedFieldsZero] using hidx

/-- A command without operands that is given one is refused (R74, R77). -/
theorem refusesWord_of_unusedOperand {op idx : BitVec 4} {data : Word}
    (hop : op = 0x1 ∨ op = 0x4 ∨ op = 0x9 ∨ op = 0xa) (hbad : idx ≠ 0 ∨ data ≠ 0) (s : State) :
    RefusesWord (cmdWord op idx data) s := by
  refine refusesWord_of_no_row (no_row_of_not_unusedFieldsZero ?_) s
  rcases hop with rfl | rfl | rfl | rfl <;> simpa [UnusedFieldsZero, imp_iff_not_or] using hbad

/-- `PADBLK` is refused in `IDLE` and `DONE` (R99). -/
theorem answers_padblk_sequenceError {s : State} (hp : s.pstate = .idle ∨ s.pstate = .done) :
    Answers .padblk s (raiseCode .sequenceError s) .sequenceError 0 :=
  ⟨(Effect.padblkSequence hp).exec_eq, raiseCode_rsp _ _⟩

/-- `PADBLK` is refused in `ERROR` (R99). -/
theorem answers_padblk_dataTooLarge {s : State} (hp : s.pstate = .error) :
    Answers .padblk s (raiseCode .dataTooLarge s) .dataTooLarge 0 :=
  ⟨(Effect.padblkError hp).exec_eq, raiseCode_rsp _ _⟩

/-! ### `LDLENL`, `LDLENH` -/

/-- The state after both halves of `LEN` have been loaded, in either order. -/
def lengthLoaded (hi lo : Word) (s : State) : State := respondOk 0 (disarm { s with len := hi ++ lo })

theorem execAll_load_high_low (hi lo : Word) (s : State) :
    execAll [.ldlenh hi, .ldlenl lo] s = .next (lengthLoaded hi lo s) := by
  have h : withLowHalf (withHighHalf s.len hi) lo = hi ++ lo := by rw [withLowHalf, withHighHalf, highHalf_append]
  rw [lengthLoaded, ← h]
  rfl

theorem execAll_load_low_high (hi lo : Word) (s : State) :
    execAll [.ldlenl lo, .ldlenh hi] s = .next (lengthLoaded hi lo s) := by
  have h : withHighHalf (withLowHalf s.len lo) hi = hi ++ lo := by rw [withLowHalf, withHighHalf, lowHalf_append]
  rw [lengthLoaded, ← h]
  rfl

/-- Settles O35: the effect of `LDLENL`, and `PADBLK` after it. -/
theorem ldlenlLoadsLowHalf : Obligations.LdlenlLoadsLowHalf := by
  intro data s
  have he := Effect.ldlenl (s := s) data
  obtain ⟨hh, hm, hw, hmsg, hport⟩ := he.keeps_all_but_generator rfl nofun
  obtain ⟨hlow, hhigh⟩ := toNat_withLowHalf s.len data
  exact ⟨⟨_, ⟨he.exec_eq, rfl⟩, hlow, hhigh, rfl, rfl, hh, hm, hw, hmsg, hport, _,
      answers_padblk_sequenceError (.inl rfl)⟩,
    fun idx hidx => refusesWord_of_unusedIdx (by decide) hidx data s⟩

/-- Settles O36: the effect of `LDLENH`, `PADBLK` after it, and the two orders of the halves. -/
theorem ldlenhLoadsHighHalf : Obligations.LdlenhLoadsHighHalf := by
  intro data s
  have he := Effect.ldlenh (s := s) data
  obtain ⟨hh, hm, hw, hmsg, hport⟩ := he.keeps_all_but_generator rfl nofun
  obtain ⟨hhigh, hlow⟩ := toNat_withHighHalf s.len data
  exact ⟨⟨_, ⟨he.exec_eq, rfl⟩, hhigh, hlow, rfl, rfl, hh, hm, hw, hmsg, hport, _,
      answers_padblk_sequenceError (.inl rfl)⟩,
    fun lo => ⟨_, _, execAll_load_high_low data lo s, execAll_load_low_high data lo s, rfl, toNat_append_words data lo⟩,
    fun idx hidx => refusesWord_of_unusedIdx (by decide) hidx data s⟩

/-! ### `PADINIT` -/

/-- Settles O37: the two effects of `PADINIT`. -/
theorem padinitChecksLengthAndArms : Obligations.PadinitChecksLengthAndArms := by
  intro s
  refine ⟨fun hL => ?_, fun hL => ?_,
    fun idx data hbad => refusesWord_of_unusedOperand (by decide) hbad s⟩
  · have he := Effect.padinitArm (s := s) hL
    exact ⟨_, ⟨he.exec_eq, rfl⟩, rfl, rfl, rfl, he.keeps_all_but_generator rfl nofun⟩
  · have he := Effect.padinitError (s := s) hL
    exact ⟨_, ⟨he.exec_eq, rfl⟩, rfl, rfl, rfl, he.keeps_all_but_generator rfl nofun⟩

/-- Settles O12: `PADINIT` enters `ERROR`, where `PADBLK` is refused; and the invariant leaves `IDLE` and `ERROR`
only. -/
theorem oversizedLengthNeverYieldsBlock : Obligations.OversizedLengthNeverYieldsBlock := by
  intro s hinv hL
  refine ⟨?_, ?_⟩
  · exact ⟨_, ⟨(Effect.padinitError hL).exec_eq, rfl⟩, rfl, ⟨rfl, rfl⟩, ⟨rfl, rfl⟩, _,
      answers_padblk_dataTooLarge rfl, rfl, ⟨rfl, rfl⟩, ⟨rfl, rfl⟩⟩
  · rcases pstate_of_length_above hinv.generator hL with hp | hp
    · exact ⟨_, _, answers_padblk_sequenceError (.inl hp), nofun, rfl, ⟨rfl, rfl⟩, ⟨rfl, rfl⟩⟩
    · exact ⟨_, _, answers_padblk_dataTooLarge hp, nofun, rfl, ⟨rfl, rfl⟩, ⟨rfl, rfl⟩⟩

/-! ### `PADBLK` -/

/-- Settles O38: the effects of `PADBLK`, in `ARMED` with the premises as the generator's invariant. -/
theorem padblkProducesNextBlock : Obligations.PadblkProducesNextBlock := by
  intro s
  refine ⟨fun hp hL hblk => ?_, fun hp => (Effect.padblkError hp).exec_eq, fun hp => (Effect.padblkSequence hp).exec_eq,
    fun idx data hbad => refusesWord_of_unusedOperand (by decide) hbad s⟩
  have hok : generatorOk s := (generatorOk_armed hp).2 ⟨hL, hblk⟩
  have he := effect_blockProduced hp hok
  refine ⟨_, ⟨he.exec_eq, blockProduced_rsp s⟩, fun j => ⟨?_, ?_⟩, blockProduced_blk hp hok, blockProduced_len s,
    blockProduced_pstate hp hok, he.keeps_runningState nofun nofun, he.keeps_hidden nofun, fun a => by rw [he.msg_eq],
    he.port_eq⟩
  · rw [blockProduced_m, Fin.getElem_fin, padBlock_getElem]
  · simp

/-- `PADINIT` and then `k` times `PADBLK` on a message of `L` bytes: `BLK` is `k`, the last block delivered is in `M`,
and the generator is `DONE` when it was the last (R99, R101). -/
structure BlocksDelivered (mem : Memory) (L k : Nat) (t : State) : Prop where
  msg : t.msg = mem
  len : t.len.toNat = L
  blk : t.blk.toNat = k
  pstate : t.pstate = if k = blockCount L then .done else .armed
  block : ∀ j, k = j + 1 → t.m = padBlock mem L j

/-- `PADINIT` delivers no block and arms the generator at block 0. -/
theorem blocksDelivered_arm (s : State) : BlocksDelivered s.msg s.len.toNat 0 (respondOk 0 (arm s)) where
  msg := rfl
  len := rfl
  blk := rfl
  pstate := (if_neg (Nat.ne_of_lt (blockCount_pos _))).symm
  block := nofun

/-- One `PADBLK` delivers the next block. -/
theorem BlocksDelivered.succ {mem : Memory} {L k : Nat} {t : State} (h : BlocksDelivered mem L k t)
    (hL : L ≤ Config.maxLen) (hk : k < blockCount L) :
    ∃ u, exec .padblk t = .next u ∧ BlocksDelivered mem L (k + 1) u := by
  obtain ⟨rfl, rfl, rfl, hp, -⟩ := h
  rw [if_neg (Nat.ne_of_lt hk)] at hp
  have hok : generatorOk t := (generatorOk_armed hp).2 ⟨hL, hk⟩
  refine ⟨_, (effect_blockProduced hp hok).exec_eq, ?_⟩
  exact {
    msg := blockProduced_msg t
    len := congrArg BitVec.toNat (blockProduced_len t)
    blk := blockProduced_blk hp hok
    pstate := blockProduced_pstate hp hok
    block := fun j hj => by rw [blockProduced_m, Nat.succ.inj hj] }

/-- `k` times `PADBLK` deliver `k` blocks, as long as the message has them. -/
theorem BlocksDelivered.iterate {mem : Memory} {L : Nat} {s : State} (h : BlocksDelivered mem L 0 s)
    (hL : L ≤ Config.maxLen) {k : Nat} (hk : k ≤ blockCount L) :
    ∃ t, execAll (List.replicate k .padblk) s = .next t ∧ BlocksDelivered mem L k t := by
  induction k with
  | zero => exact ⟨s, rfl, h⟩
  | succ k ih =>
    obtain ⟨t, hrun, ht⟩ := ih (by omega)
    obtain ⟨u, hexec, hu⟩ := ht.succ hL hk
    refine ⟨u, ?_, hu⟩
    rw [List.replicate_succ', execAll_append, hrun]
    simp only [execAll, hexec]

/-- Settles O40: `PADINIT` meets `BlocksDelivered` for no block, and each `PADBLK` takes it one further. -/
theorem padblkDeliversBlocksInOrder : Obligations.PadblkDeliversBlocksInOrder := by
  intro s k hL hk hkN
  obtain ⟨t, hrun, ht⟩ := (blocksDelivered_arm s).iterate hL hkN
  refine ⟨t, ?_, ht.block (k - 1) (by omega), ht.blk, ht.pstate, fun hlast => ?_⟩
  · rw [execAll, (Effect.padinitArm hL).exec_eq]
    exact hrun
  · have hdone : t.pstate = .done := ht.pstate.trans (if_pos hlast)
    exact ⟨_, answers_padblk_sequenceError (.inr hdone), raiseCode_m _ _⟩

/-! ### The transition table of `PSTATE` (R100) -/

/-- The column of a length load: disarmed at block 0. -/
theorem Effect.of_loadsLength {i : Instr} {s t : State} (h : Effect s i t) (hi : loadsLength i = true) :
    t.pstate = .idle ∧ t.blk = 0 ∧ t.rsp = some ⟨.ok, 0⟩ := by
  cases h with
  | ldlenl => exact ⟨rfl, rfl, rfl⟩
  | ldlenh => exact ⟨rfl, rfl, rfl⟩
  | _ => cases hi

/-- The column of `PADINIT` with an accepted length. -/
theorem Effect.padinit_accepted {s t : State} (h : Effect s .padinit t) (hL : s.len.toNat ≤ Config.maxLen) :
    t.pstate = .armed ∧ t.rsp = some ⟨.ok, 0⟩ := by
  cases h with
  | padinitError hgt => exact absurd hL (Nat.not_le.2 hgt)
  | padinitArm => exact ⟨rfl, rfl⟩

/-- The column of `PADINIT` with a length above the bound. -/
theorem Effect.padinit_tooLarge {s t : State} (h : Effect s .padinit t) (hL : Config.maxLen < s.len.toNat) :
    t.pstate = .error ∧ t.rsp = some ⟨.dataTooLarge, 0⟩ := by
  cases h with
  | padinitError => exact ⟨rfl, rfl⟩
  | padinitArm hle => exact absurd hL (Nat.not_lt.2 hle)

/-- What `exec` has given once is its only next state. -/
theorem Effect.eq {i : Instr} {s t u : State} (h : Effect s i t) (h' : Effect s i u) : t = u :=
  Host.Outcome.next.inj (h.exec_eq.symm.trans h'.exec_eq)

/-- The column of `PADBLK` in `ARMED`. -/
theorem Effect.padblk_armed {s t : State} (h : Effect s .padblk t) (hp : s.pstate = .armed) (hok : generatorOk s) :
    t.pstate = (if s.blk.toNat + 1 < blockCount s.len.toNat then .armed else .done) ∧ t.rsp = some ⟨.ok, 0⟩ := by
  obtain rfl := h.eq (effect_blockProduced hp hok)
  obtain ⟨-, hlt⟩ := (generatorOk_armed hp).1 hok
  refine ⟨?_, blockProduced_rsp s⟩
  rw [blockProduced_pstate hp hok]
  by_cases hlast : s.blk.toNat + 1 = blockCount s.len.toNat
  · rw [if_pos hlast, if_neg (by omega)]
  · rw [if_neg hlast, if_pos (by omega)]

/-- Settles O48: the columns of the table, with the cells that the invariant excludes. -/
theorem pstateTransitionTable : Obligations.PstateTransitionTable := by
  intro s hinv
  have hgen : generatorOk s := hinv.generator
  refine ⟨fun i t h => ?_, fun w hw => ⟨_, refusesWord_of_illegal hw s, rfl, rfl⟩, rfl⟩
  have he : Effect s i t := exec_eq_next_iff.1 h
  refine ⟨he.keeps_generatorOk hgen, he.of_loadsLength, ?_, ?_, ?_, ?_, ?_, ?_,
    fun hl hi hb => (he.blk_pstate_eq hl hi hb).symm⟩
  · rintro rfl hL
    exact ⟨fun hp => Nat.not_lt.2 hL ((generatorOk_error hp).1 hgen).1, he.padinit_accepted hL⟩
  · rintro rfl hL
    have hcolumn := he.padinit_tooLarge hL
    rcases pstate_of_length_above hgen hL with hp | hp <;> exact ⟨by simp [hp], by simp [hp], hcolumn⟩
  · rintro rfl hp
    obtain rfl := he.eq (.padblkSequence (.inl hp))
    exact ⟨hp, rfl⟩
  · rintro rfl hp
    exact he.padblk_armed hp hgen
  · rintro rfl hp
    obtain rfl := he.eq (.padblkSequence (.inr hp))
    exact ⟨hp, rfl⟩
  · rintro rfl hp
    obtain rfl := he.eq (.padblkError hp)
    exact ⟨hp, rfl⟩

end Sys2Proof.Machine
end

section
/-! The datapath primitives, bit by bit: where each bit of a rotation, a shift and a sigma function comes from, what a bit
of `Ch` and of `Maj` is, and the identities that follow (41_primitives.md R110 to R123). -/

namespace Sys2Proof.Machine

/-! ### The right rotation (R111) -/

/-- The model's rotation is the library's for every amount below the width. -/
theorem rotr_eq_rotateRight (x : Word) {n : Nat} (hn : n < 32) : rotr x n = x.rotateRight n := by
  rw [rotr, BitVec.rotateRight, BitVec.rotateRightAux, Nat.mod_eq_of_lt hn]

theorem toNat_rotr (x : Word) {n : Nat} (hn : n < 32) :
    (rotr x n).toNat = (x.toNat >>> n) ||| ((x.toNat <<< (32 - n)) % 2 ^ 32) := by
  rw [rotr_eq_rotateRight x hn, BitVec.toNat_rotateRight, Nat.mod_eq_of_lt hn]

/-- A bit above the `32 - n` low ones has wrapped around. -/
theorem getLsbD_rotr (x : Word) {n i : Nat} (hn : n < 32) (hi : i < 32) :
    (rotr x n).getLsbD i = x.getLsbD ((i + n) % 32) := by
  rw [rotr_eq_rotateRight x hn, BitVec.getLsbD_rotateRight_of_lt hn]
  by_cases h : i < 32 - n
  · have hstay : (i + n) % 32 = n + i := by omega
    simp [h, hstay]
  · have hwrap : (i + n) % 32 = i - (32 - n) := by omega
    simp [h, hi, hwrap]

theorem rotr_zero (n : Nat) : rotr 0 n = 0 := by simp [rotr]

theorem rotr_allOnes {n : Nat} (hn : n < 32) : rotr (BitVec.allOnes 32) n = BitVec.allOnes 32 := by
  refine BitVec.eq_of_getLsbD_eq fun i hi => ?_
  have hsource : (i + n) % 32 < 32 := by omega
  simp only [getLsbD_rotr _ hn hi, BitVec.getLsbD_allOnes, hi, hsource]

/-- Bit 0 lands `n` places below the top. -/
theorem rotr_one {n : Nat} (h1 : 1 ≤ n) (hn : n < 32) : rotr 1 n = BitVec.twoPow 32 (32 - n) := by
  refine BitVec.eq_of_getLsbD_eq fun i hi => ?_
  have hsource : (i + n) % 32 = 0 ↔ 32 - n = i := by omega
  have hlt : 32 - n < 32 := by omega
  simp [getLsbD_rotr _ hn hi, BitVec.getLsbD_one, BitVec.getLsbD_twoPow, hsource, hlt]

/-- Settles O14: the rotation is the library's, and bit `i` of it is bit `(i + n) mod 32`. -/
theorem rotrMovesEveryBit : Obligations.RotrMovesEveryBit := by
  intro x n h1 h31
  have hn : n < 32 := Nat.lt_succ_of_le h31
  refine ⟨toNat_rotr x hn, fun i hi => getLsbD_rotr x hn hi, rotr_zero n, rotr_allOnes hn, ?_, by decide⟩
  rw [rotr_one h1 hn, BitVec.toNat_twoPow_of_lt (by omega)]

/-! ### The logical right shift (R112) -/

theorem toNat_shr (x : Word) (n : Nat) : (shr x n).toNat = x.toNat / 2 ^ n := by
  rw [shr, BitVec.toNat_ushiftRight, Nat.shiftRight_eq_div_pow]

@[simp] theorem getLsbD_shr (x : Word) (n i : Nat) : (shr x n).getLsbD i = x.getLsbD (i + n) := by
  rw [shr, BitVec.getLsbD_ushiftRight, Nat.add_comm]

/-- Settles O15: the bits a shift moves in come from beyond bit 31. -/
theorem shrIsFloorDivision : Obligations.ShrIsFloorDivision := by
  intro x n _ _
  refine ⟨toNat_shr x n, fun i hlow _ => ?_, by decide⟩
  rw [getLsbD_shr, BitVec.getLsbD_of_ge x (i + n) (by omega)]

/-! ### Addition (R110) -/

theorem toNat_add32 (x y : Word) : (add32 x y).toNat = (x.toNat + y.toNat) % 2 ^ 32 := BitVec.toNat_add x y

/-- Settles O13: `add32` is the addition of `BitVec 32`. -/
theorem addIsSumModulo32 : Obligations.AddIsSumModulo32 := fun x y z =>
  ⟨toNat_add32 x y, BitVec.add_comm x y, BitVec.add_assoc x y z, BitVec.add_zero x, by decide⟩

/-! ### `Ch` and `Maj` (R115, R116) -/

/-- `Ch` chooses: a bit of `y` where `x` has a 1, of `z` where it has a 0. -/
theorem getLsbD_ch (x y z : Word) {i : Nat} (hi : i < 32) :
    (ch x y z).getLsbD i = if x.getLsbD i then y.getLsbD i else z.getLsbD i := by
  simp only [ch, BitVec.getLsbD_xor, BitVec.getLsbD_and, BitVec.getLsbD_not, hi]
  cases x.getLsbD i <;> simp

@[simp] theorem getLsbD_xor3 (x y z : Word) (i : Nat) :
    (xor3 x y z).getLsbD i = ((x.getLsbD i ^^ y.getLsbD i) ^^ z.getLsbD i) := by
  rw [xor3, BitVec.getLsbD_xor, BitVec.getLsbD_xor]

/-- The formula of `Maj` on one bit is the vote of at least two of three. -/
theorem xor_and_eq_majority (a b c : Bool) :
    (((a && b) ^^ (a && c)) ^^ (b && c)) = decide (2 ≤ a.toNat + b.toNat + c.toNat) := by
  revert a b c
  decide

/-- `Maj` votes: the value that at least two of the three bits have. -/
theorem getLsbD_maj (x y z : Word) (i : Nat) :
    (maj x y z).getLsbD i =
      decide (2 ≤ (x.getLsbD i).toNat + (y.getLsbD i).toNat + (z.getLsbD i).toNat) := by
  rw [maj, getLsbD_xor3, BitVec.getLsbD_and, BitVec.getLsbD_and, BitVec.getLsbD_and, xor_and_eq_majority]

theorem ch_allOnes (y z : Word) : ch (BitVec.allOnes 32) y z = y := by
  rw [ch, BitVec.allOnes_and, BitVec.not_allOnes, BitVec.zero_and, BitVec.xor_zero]

theorem ch_zero (y z : Word) : ch 0 y z = z :=
  BitVec.eq_of_getLsbD_eq fun i hi => by
    rw [getLsbD_ch 0 y z hi]
    simp

theorem ch_same (x y : Word) : ch x y y = y :=
  BitVec.eq_of_getLsbD_eq fun i hi => by rw [getLsbD_ch x y y hi, ite_self]

/-- A vote does not depend on the order of the voters. -/
theorem maj_comm (x y z : Word) : maj x y z = maj y x z :=
  BitVec.eq_of_getLsbD_eq fun i _ => by rw [getLsbD_maj, getLsbD_maj, Nat.add_comm (x.getLsbD i).toNat]

theorem maj_right_comm (x y z : Word) : maj x y z = maj x z y :=
  BitVec.eq_of_getLsbD_eq fun i _ => by rw [getLsbD_maj, getLsbD_maj, Nat.add_right_comm]

theorem maj_same (x z : Word) : maj x x z = x := by simp [maj, xor3]

theorem maj_zero (y z : Word) : maj 0 y z = y &&& z := by simp [maj, xor3]

/-! ### The other forms of `Ch` and `Maj` (R123) -/

theorem ch_eq_xor_and_xor (x y z : Word) : ch x y z = z ^^^ (x &&& (y ^^^ z)) :=
  BitVec.eq_of_getLsbD_eq fun i hi => by
    simp only [getLsbD_ch x y z hi, BitVec.getLsbD_xor, BitVec.getLsbD_and]
    cases x.getLsbD i with
    | false => simp
    | true => simp [Bool.xor_left_comm (z.getLsbD i)]

theorem ch_eq_or (x y z : Word) : ch x y z = (x &&& y) ||| (~~~x &&& z) :=
  BitVec.eq_of_getLsbD_eq fun i hi => by
    simp only [getLsbD_ch x y z hi, BitVec.getLsbD_or, BitVec.getLsbD_and, BitVec.getLsbD_not, hi]
    cases x.getLsbD i <;> simp

/-- The third voter joins in unless it is alone. -/
theorem majority_eq_or (a b c : Bool) :
    decide (2 ≤ a.toNat + b.toNat + c.toNat) = (a && b || c && (a || b)) := by
  revert a b c
  decide

/-- The third voter decides where the first two differ. -/
theorem majority_eq_xor (a b c : Bool) :
    decide (2 ≤ a.toNat + b.toNat + c.toNat) = ((a && b) ^^ (c && (a ^^ b))) := by
  revert a b c
  decide

theorem maj_eq_or (x y z : Word) : maj x y z = (x &&& y) ||| (z &&& (x ||| y)) :=
  BitVec.eq_of_getLsbD_eq fun i _ => by
    simp only [getLsbD_maj, majority_eq_or, BitVec.getLsbD_or, BitVec.getLsbD_and]

theorem maj_eq_xor (x y z : Word) : maj x y z = (x &&& y) ^^^ (z &&& (x ^^^ y)) :=
  BitVec.eq_of_getLsbD_eq fun i _ => by
    simp only [getLsbD_maj, majority_eq_xor, BitVec.getLsbD_xor, BitVec.getLsbD_and]

theorem maj_allOnes (y z : Word) : maj (BitVec.allOnes 32) y z = y ||| z := by
  rw [maj_eq_or, BitVec.allOnes_and, BitVec.allOnes_or, BitVec.and_allOnes]

/-- Settles O16: `Ch` is a choice and `Maj` a vote on each bit. -/
theorem chChoosesAndMajVotes : Obligations.ChChoosesAndMajVotes := by
  intro x y z i hi
  exact ⟨rfl, rfl, getLsbD_ch x y z hi, getLsbD_maj x y z i, ⟨ch_allOnes y z, ch_zero y z, ch_same x y⟩, by decide,
    by decide, ⟨maj_comm x y z, maj_right_comm x y z⟩, ⟨maj_same x z, maj_zero y z, maj_allOnes y z⟩, by decide⟩

/-! ### The sigma functions (R117 to R120) -/

/-- The exclusive or of three rotations, as in the two big sigma functions. -/
theorem getLsbD_xor3_rotr (x : Word) {a b c i : Nat} (ha : a < 32) (hb : b < 32) (hc : c < 32) (hi : i < 32) :
    (xor3 (rotr x a) (rotr x b) (rotr x c)).getLsbD i =
      ((x.getLsbD ((i + a) % 32) ^^ x.getLsbD ((i + b) % 32)) ^^ x.getLsbD ((i + c) % 32)) := by
  rw [getLsbD_xor3, getLsbD_rotr x ha hi, getLsbD_rotr x hb hi, getLsbD_rotr x hc hi]

/-- The exclusive or of two rotations and a shift, as in the two little sigma functions: the third term ends at bit 31. -/
theorem getLsbD_xor3_rotr_shr (x : Word) {a b i : Nat} (c : Nat) (ha : a < 32) (hb : b < 32) (hi : i < 32) :
    (xor3 (rotr x a) (rotr x b) (shr x c)).getLsbD i =
      ((x.getLsbD ((i + a) % 32) ^^ x.getLsbD ((i + b) % 32)) ^^ (decide (i + c < 32) && x.getLsbD (i + c))) := by
  have hshift : (shr x c).getLsbD i = (decide (i + c < 32) && x.getLsbD (i + c)) := by
    rw [getLsbD_shr]
    by_cases hc : i + c < 32
    · simp [hc]
    · simp [hc, BitVec.getLsbD_of_ge x (i + c) (Nat.le_of_not_lt hc)]
  rw [getLsbD_xor3, getLsbD_rotr x ha hi, getLsbD_rotr x hb hi, hshift]

/-- Settles O17: each sigma function is one of the two shapes above, at its own three amounts. -/
theorem sigmaFunctionsBitByBit : Obligations.SigmaFunctionsBitByBit := by
  refine ⟨by decide, by decide, by decide, by decide, fun x i hi => ⟨⟨rfl, rfl, rfl, rfl⟩, ?_, ?_, ?_, ?_⟩⟩
  · exact getLsbD_xor3_rotr x (by decide) (by decide) (by decide) hi
  · exact getLsbD_xor3_rotr x (by decide) (by decide) (by decide) hi
  · exact getLsbD_xor3_rotr_shr x 3 (by decide) (by decide) hi
  · exact getLsbD_xor3_rotr_shr x 10 (by decide) (by decide) hi

/-! ### Composition and linearity (R123) -/

/-- Two rotations add their amounts modulo 32. -/
theorem rotr_rotr (x : Word) {m n : Nat} (hm : m < 32) (hn : n < 32) :
    rotr (rotr x m) n = rotr x ((m + n) % 32) := by
  refine BitVec.eq_of_getLsbD_eq fun i hi => ?_
  have hmid : (i + n) % 32 < 32 := Nat.mod_lt _ (by decide)
  have hsum : (m + n) % 32 < 32 := Nat.mod_lt _ (by decide)
  have hsource : ((i + n) % 32 + m) % 32 = (i + (m + n) % 32) % 32 := by omega
  rw [getLsbD_rotr _ hn hi, getLsbD_rotr _ hm hmid, getLsbD_rotr _ hsum hi, hsource]

theorem rotr_xor (x y : Word) {n : Nat} (hn : n < 32) : rotr (x ^^^ y) n = rotr x n ^^^ rotr y n :=
  BitVec.eq_of_getLsbD_eq fun i hi => by
    rw [getLsbD_rotr _ hn hi, BitVec.getLsbD_xor, BitVec.getLsbD_xor, getLsbD_rotr _ hn hi, getLsbD_rotr _ hn hi]

theorem shr_xor (x y : Word) (n : Nat) : shr (x ^^^ y) n = shr x n ^^^ shr y n :=
  BitVec.ushiftRight_xor_distrib x y n

theorem xor3_xor (a b c a' b' c' : Word) :
    xor3 (a ^^^ a') (b ^^^ b') (c ^^^ c') = xor3 a b c ^^^ xor3 a' b' c' := by
  unfold xor3
  ac_rfl

/-- Settles O18: the other forms of `Ch` and `Maj`, and a sigma function is an exclusive or of linear terms. -/
theorem primitiveIdentities : Obligations.PrimitiveIdentities := by
  refine ⟨fun x y z => ⟨ch_eq_xor_and_xor x y z, ch_eq_or x y z, maj_eq_or x y z, maj_eq_xor x y z⟩,
    fun x m n _ hm _ hn _ => rotr_rotr x (by omega) (by omega),
    fun x y n _ hn => ⟨rotr_xor x y (by omega), shr_xor x y n⟩, fun x y => ⟨?_, ?_, ?_, ?_⟩⟩
  · simp only [bigSigma0, rotr_xor, xor3_xor, Nat.reduceLT]
  · simp only [bigSigma1, rotr_xor, xor3_xor, Nat.reduceLT]
  · simp only [littleSigma0, rotr_xor, shr_xor, xor3_xor, Nat.reduceLT]
  · simp only [littleSigma1, rotr_xor, shr_xor, xor3_xor, Nat.reduceLT]

end Sys2Proof.Machine
end

section
/-! The compression engine, step by step: the state after each of the 130 internal steps of one `COMPRESS`, as an equation,
and what follows for the function `Compress` and for the loop over a padded message (42_compression_engine.md R130 to R147). -/

namespace Sys2Proof.Machine

/-! ### The message schedule as a function (R131, R132) -/

/-- Word `i` of the schedule is word `i` of every `scheduleList` that has one. -/
theorem schedule_getElem (b : Vector Word 16) {i n : Nat} (hi : i < 64) (hin : i < n) (hn : n ≤ 64) :
    (schedule b)[i] = (scheduleList b n).getD i 0 := by
  rw [schedule, Vector.getElem_ofFn, scheduleList_getD_of_le b hin hn]

/-- Word `i` of the schedule is what `scheduleList` adds to the words before it. -/
theorem schedule_getElem_eq_last (b : Vector Word 16) {i : Nat} (hi : i < 64) :
    (schedule b)[i] = if hc : i < 16 then b[i] else
      expandWord ((scheduleList b i).getD (i - 2) 0) ((scheduleList b i).getD (i - 7) 0)
        ((scheduleList b i).getD (i - 15) 0) ((scheduleList b i).getD (i - 16) 0) := by
  rw [schedule_getElem b hi (Nat.lt_succ_self i) hi, scheduleList, List.getD_eq_getElem?_getD,
    List.getElem?_append_right (by simp), scheduleList_length, Nat.sub_self, List.getElem?_cons_zero, Option.getD_some]

/-- The first sixteen words are the block (R131). -/
theorem schedule_getElem_copy (b : Vector Word 16) {i : Nat} (hi : i < 16) : (schedule b)[i] = b[i] := by
  rw [schedule_getElem_eq_last, dif_pos hi]

/-- The other words meet the recurrence (R132). -/
theorem schedule_getElem_expand (b : Vector Word 16) {i : Nat} (hlo : 16 ≤ i) (hi : i < 64) :
    (schedule b)[i] =
      expandWord (schedule b)[i - 2] (schedule b)[i - 7] (schedule b)[i - 15] (schedule b)[i - 16] := by
  have hword {j : Nat} (hj : j < i) : (scheduleList b i).getD j 0 = (schedule b)[j] :=
    (schedule_getElem b (hj.trans hi) hj (Nat.le_of_lt hi)).symm
  rw [schedule_getElem_eq_last b hi, dif_neg (Nat.not_lt.2 hlo), hword (by omega), hword (by omega), hword (by omega),
    hword (by omega)]

/-- The schedule of the all-zero block is all zero: every sigma function is 0 at 0. -/
theorem schedule_zero : schedule (Vector.replicate 16 0) = Vector.replicate 64 0 := by
  refine Vector.ext fun i hi => ?_
  rw [Vector.getElem_replicate]
  induction i using Nat.strong_induction_on with
  | _ i ih =>
    rcases Nat.lt_or_ge i 16 with hc | hc
    · rw [schedule_getElem_copy _ hc, Vector.getElem_replicate]
    · rw [schedule_getElem_expand _ hc hi, ih (i - 2) (by omega), ih (i - 7) (by omega), ih (i - 15) (by omega),
        ih (i - 16) (by omega)]
      decide

/-! ### The schedule phase (R140) -/

/-- `T` is not at its last value when there is a next one. -/
theorem counter_ne_last {n : Nat} (hn : n + 1 < 64) : (⟨n, Nat.lt_of_succ_lt hn⟩ : Fin 64) ≠ 63 :=
  Fin.ne_of_val_ne (show n ≠ 63 by omega)

/-- Then `T` moves on by one. -/
theorem counter_add_one {n : Nat} (hn : n + 1 < 64) : (⟨n, Nat.lt_of_succ_lt hn⟩ + 1 : Fin 64) = ⟨n + 1, hn⟩ :=
  Fin.ext (Fin.val_add_one_of_lt (Fin.lt_last_iff_ne_last.2 (counter_ne_last hn)))

/-- The register file `W` when the first `n` words of the schedule of `b` have been written over `w`. -/
def scheduleOver (b : Vector Word 16) (w : Vector Word 64) (n : Nat) : Vector Word 64 :=
  Vector.ofFn fun i => if i.val < n then (schedule b)[i] else w[i]

theorem scheduleOver_getElem_of_lt (b : Vector Word 16) (w : Vector Word 64) {n i : Nat} (hi : i < 64) (hin : i < n) :
    (scheduleOver b w n)[i] = (schedule b)[i] := by
  simp [scheduleOver, hin]

@[simp] theorem scheduleOver_zero (b : Vector Word 16) (w : Vector Word 64) : scheduleOver b w 0 = w := by
  simp [scheduleOver]

/-- Writing word `n` of the schedule takes `n` to `n + 1`. -/
theorem scheduleOver_set (b : Vector Word 16) (w : Vector Word 64) {n : Nat} (hn : n < 64) :
    (scheduleOver b w n).set n (schedule b)[n] = scheduleOver b w (n + 1) := by
  refine Vector.ext fun i hi => ?_
  simp only [scheduleOver, Vector.getElem_set, Vector.getElem_ofFn, Fin.getElem_fin]
  split
  case isTrue h => subst h; rw [if_pos (Nat.lt_succ_self n)]
  case isFalse h => simp only [show i < n + 1 ↔ i < n by omega]

/-- All 64 words written are the schedule, and nothing is left of `w`. -/
theorem scheduleOver_all (b : Vector Word 16) (w : Vector Word 64) : scheduleOver b w 64 = schedule b :=
  Vector.ext fun _ hi => scheduleOver_getElem_of_lt b w hi hi

/-- Steps 0 to 15 copy (R131). -/
theorem scheduleStepWord_copy {s : State} (ht : s.t.val < 16) : scheduleStepWord s = s.m[s.t.val] := dif_pos ht

/-- Steps 16 to 63 expand (R132). -/
theorem scheduleStepWord_expand {s : State} (ht : 16 ≤ s.t.val) :
    scheduleStepWord s = expandWord s.w[s.t.val - 2] s.w[s.t.val - 7] s.w[s.t.val - 15] s.w[s.t.val - 16] :=
  dif_neg (Nat.not_lt.2 ht)

/-- When `W` holds the first `T` words of the schedule of `M`, the step writes the next one. -/
theorem scheduleStepWord_of_scheduleOver {s : State} {w : Vector Word 64} (hw : s.w = scheduleOver s.m w s.t.val) :
    scheduleStepWord s = (schedule s.m)[s.t.val] := by
  have ht := s.t.isLt
  have hword {i : Nat} (hi : i < s.t.val) : s.w[i] = (schedule s.m)[i] := by
    rw [hw, scheduleOver_getElem_of_lt s.m w (hi.trans ht) hi]
  rcases Nat.lt_or_ge s.t.val 16 with hc | hc
  · rw [scheduleStepWord_copy hc, schedule_getElem_copy s.m hc]
  · rw [scheduleStepWord_expand hc, hword (by omega), hword (by omega), hword (by omega), hword (by omega),
      schedule_getElem_expand s.m hc ht]

/-- So after the step `W` holds one word more. -/
theorem set_scheduleStepWord {s : State} {w : Vector Word 64} (hw : s.w = scheduleOver s.m w s.t.val) :
    s.w.set s.t (scheduleStepWord s) = scheduleOver s.m w (s.t.val + 1) := by
  rw [scheduleStepWord_of_scheduleOver hw, hw, scheduleOver_set s.m w s.t.isLt]

/-- The state after `n` steps of the schedule phase. -/
def inSchedule (s : State) (n : Nat) (hn : n < 64) : State :=
  { s with w := scheduleOver s.m s.w n, phase := .sched, t := ⟨n, hn⟩ }

/-- The state when the schedule is complete. -/
def scheduled (s : State) : State := { s with w := schedule s.m, phase := .seed, t := 0 }

/-- The state after the first `n` internal steps, all in the schedule phase. -/
theorem engineRun_inSchedule (s : State) {n : Nat} (hn : n < 64) : engineRun n (engineStart s) = inSchedule s n hn := by
  induction n with
  | zero => simp [engineRun, engineStart, inSchedule]
  | succ n ih =>
    have hlt : n < 64 := by omega
    rw [engineRun_succ, ih hlt, engineStep_sched rfl (counter_ne_last hn),
      set_scheduleStepWord (w := s.w) (by simp only [inSchedule])]
    simp only [inSchedule, counter_add_one hn]

/-- The 64 schedule steps write the schedule of `M` into `W`. -/
theorem engineRun_scheduled (s : State) : engineRun 64 (engineStart s) = scheduled s := by
  have hlast : (inSchedule s 63 (by decide)).t.val + 1 = 64 := rfl
  rw [engineRun_succ, engineRun_inSchedule s (by decide), engineStep_sched_last rfl rfl,
    set_scheduleStepWord (w := s.w) (by simp only [inSchedule]), hlast, scheduleOver_all]
  simp only [inSchedule, scheduled]

/-- Settles O19: after 64 steps `W` is the schedule of `M`, whose words are the copy and then the recurrence. -/
theorem scheduleIsCopyThenRecurrence : Obligations.ScheduleIsCopyThenRecurrence := by
  intro s
  simp only [engineRun_scheduled, scheduled]
  refine ⟨fun i => ?_, fun i hlo hi => ?_, trivial, fun hm => ?_⟩
  · exact schedule_getElem_copy s.m i.isLt
  · exact schedule_getElem_expand s.m hlo hi
  · rw [hm, schedule_zero]

/-! ### The seed, the rounds and the fold (R133 to R140) -/

/-- Round `n` takes `K[n]` and `W[n]` (R134, R135). -/
theorem roundsUpTo_succ (w : Vector Word 64) (v : Vars) {n : Nat} (hn : n < 64) :
    roundsUpTo w v (n + 1) = roundUpdate (roundsUpTo w v n) roundConstants[n] w[n] := by
  have hget (x : Vector Word 64) : x.toList.getD n 0 = x[n] := by simp [List.getD_eq_getElem?_getD, hn]
  rw [roundsUpTo, hget, hget]

/-- The state after the schedule, the seed and `n` rounds. -/
def inRounds (s : State) (n : Nat) (hn : n < 64) : State :=
  { s with w := schedule s.m, vars := roundsUpTo (schedule s.m) (seedVars s.h) n, phase := .round, t := ⟨n, hn⟩ }

/-- The state after the last round. -/
def roundsDone (s : State) : State :=
  { s with w := schedule s.m, vars := roundsUpTo (schedule s.m) (seedVars s.h) 64, phase := .fold, t := 0 }

/-- The state after the fold. -/
def compressed (s : State) : State :=
  { s with
    h := compressFn s.h s.m
    w := schedule s.m
    vars := roundsUpTo (schedule s.m) (seedVars s.h) 64
    phase := .idle
    t := 0 }

/-- The state after the first `65 + n` internal steps, the last `n` of them rounds. -/
theorem engineRun_inRounds (s : State) {n : Nat} (hn : n < 64) : engineRun (65 + n) (engineStart s) = inRounds s n hn := by
  induction n with
  | zero =>
    rw [engineRun_succ, engineRun_scheduled, engineStep_seed rfl]
    simp only [scheduled, inRounds, roundsUpTo, Fin.mk_zero']
  | succ n ih =>
    have hlt : n < 64 := by omega
    rw [← Nat.add_assoc, engineRun_succ, ih hlt, engineStep_round rfl (counter_ne_last hn)]
    simp only [inRounds, counter_add_one hn, Fin.getElem_fin, roundsUpTo_succ _ _ hlt]

/-- The rounds end with round 63. -/
theorem engineRun_roundsDone (s : State) : engineRun 129 (engineStart s) = roundsDone s := by
  have hlast := roundsUpTo_succ (schedule s.m) (seedVars s.h) (n := 63) (by decide)
  rw [engineRun_succ, engineRun_inRounds s (n := 63) (by decide), engineStep_round_last rfl rfl]
  simp only [inRounds, roundsDone, hlast, Fin.getElem_fin]

/-- The fold ends the sequence. -/
theorem engineRun_compressed (s : State) : engineRun 130 (engineStart s) = compressed s := by
  rw [engineRun_succ, engineRun_roundsDone, engineStep_fold rfl]
  simp only [roundsDone, compressed, compressFn]

/-- Settles O22: the state after the fold. -/
theorem sequenceComputesCompress : Obligations.SequenceComputesCompress := engineRun_compressed

/-- Settles O21: `PHASE` and `T` are read off the state after each step. -/
theorem sequencerTimetable : Obligations.SequencerTimetable := by
  intro s n
  refine ⟨fun hn => ?_, ?_, fun hlo hhi => ?_, ?_, ?_⟩
  · simp only [engineRun_inSchedule s hn, inSchedule, and_self]
  · rintro rfl
    simp only [engineRun_scheduled, scheduled, and_self]
  · obtain ⟨k, rfl⟩ := Nat.exists_eq_add_of_le hlo
    simp only [engineRun_inRounds s (n := k) (by omega), inRounds, Nat.add_sub_cancel_left, and_self]
  · rintro rfl
    simp only [engineRun_roundsDone, roundsDone, and_self]
  · rintro rfl
    simp only [engineRun_compressed, compressed, and_self]

/-! ### One step of the seed, the rounds and the fold -/

/-- A round changes the working variables and the sequencer, whether it is the last one or not (R134, R135). -/
theorem engineStep_round_eq {s : State} (hp : s.phase = .round) :
    engineStep s = { s with
      vars := roundUpdate s.vars roundConstants[s.t] s.w[s.t]
      phase := (engineStep s).phase
      t := (engineStep s).t } := by
  by_cases ht : s.t = 63
  · rw [engineStep_round_last hp ht]
  · rw [engineStep_round hp ht]

/-- Settles O20: the update of a round, written out. -/
theorem roundStepUpdatesVariables : Obligations.RoundStepUpdatesVariables := by
  intro s hp
  rw [engineStep_round_eq hp]
  exact ⟨rfl, rfl, rfl, rfl⟩

/-- Settles O58: the seed step, field by field. -/
theorem seedStepWordByWord : Obligations.SeedStepWordByWord := by
  intro s hp
  rw [engineStep_seed hp]
  exact ⟨⟨rfl, rfl, rfl, rfl, rfl, rfl, rfl, rfl⟩, rfl, rfl, rfl, ⟨rfl, rfl⟩, ⟨rfl, rfl⟩, ⟨rfl, rfl, rfl⟩, fun _ => rfl, rfl⟩

/-- Settles O59: the fold step, field by field; each word of `H` is an `add32`. -/
theorem foldStepWordByWord : Obligations.FoldStepWordByWord := by
  intro s hp
  rw [engineStep_fold hp]
  refine ⟨⟨?_, ?_, ?_, ?_, ?_, ?_, ?_, ?_⟩, rfl, rfl, rfl, rfl, ⟨rfl, rfl⟩, ⟨rfl, rfl, rfl⟩, fun _ => rfl, rfl⟩ <;>
    exact toNat_add32 _ _

/-! ### `INIT` and `COMPRESS` -/

/-- Settles O26: the effect of `INIT`; the second one writes what is there already. -/
theorem initLoadsInitialState : Obligations.InitLoadsInitialState := by
  intro s
  refine ⟨?_, fun idx data hbad => refusesWord_of_unusedOperand (by decide) hbad s⟩
  have he : Effect s .init (respondOk 0 (writeRunningState initialState s)) := .init
  exact ⟨_, ⟨he.exec_eq, rfl⟩, rfl, rfl, rfl, he.keeps_block (fun _ _ => nofun) nofun, he.keeps_hidden nofun,
    he.keeps_generator_of_usesEngine rfl, fun a => by rw [he.msg_eq], he.port_eq⟩

/-- The sequence of one `COMPRESS` computes the function `Compress` (R143). -/
theorem compressRun_h (s : State) : (compressRun s).h = compressFn s.h s.m := by
  rw [compressRun_eq, engineRun_compressed, compressed]

/-- The state `COMPRESS` leaves when every word that it reads has been written (R142). -/
def blockFolded (s : State) : State := respondOk 0 (dropHidden (compressRun s))

/-- The command that gives it. -/
theorem effect_blockFolded {s : State} (hk : operandsKnown s) : Effect s .compress (blockFolded s) := .compressKnown hk

@[simp] theorem blockFolded_h (s : State) : (blockFolded s).h = compressFn s.h s.m := by
  simp [blockFolded, compressRun_h]
@[simp] theorem blockFolded_hKnown (s : State) : (blockFolded s).hKnown = s.hKnown := by simp [blockFolded]
@[simp] theorem blockFolded_blk (s : State) : (blockFolded s).blk = s.blk := by simp [blockFolded]
@[simp] theorem blockFolded_len (s : State) : (blockFolded s).len = s.len := by simp [blockFolded]
@[simp] theorem blockFolded_msg (s : State) : (blockFolded s).msg = s.msg := by simp [blockFolded]
@[simp] theorem blockFolded_pstate (s : State) : (blockFolded s).pstate = s.pstate := by simp [blockFolded]
@[simp] theorem blockFolded_rsp (s : State) : (blockFolded s).rsp = some ⟨.ok, 0⟩ := by simp [blockFolded]

/-- Settles O23: the first answer of `COMPRESS`, whose `H` is `compressRun_h`. -/
theorem compressFoldsTheBlock : Obligations.CompressFoldsTheBlock := by
  intro s hk
  have he := effect_blockFolded hk
  obtain ⟨hphase, ht⟩ := sequencerOk_compressRun s
  exact ⟨_, ⟨he.exec_eq, blockFolded_rsp s⟩, blockFolded_h s, (blockFolded_hKnown s).trans hk.1,
    by simp [blockFolded, hphase], by simp [blockFolded, ht], he.keeps_block (fun _ _ => nofun) nofun, he.keeps_generator_of_usesEngine rfl,
    fun a => by rw [he.msg_eq], he.port_eq⟩

/-! ### The loop of `PADBLK` and `COMPRESS` (R144, R155) -/

/-- The chaining value after one more block (R144). -/
theorem chainFn_concat (st : Vector Word 8) (bs : List (Vector Word 16)) (b : Vector Word 16) :
    chainFn st (bs ++ [b]) = compressFn (chainFn st bs) b := List.foldl_concat ..

/-- The loop with one more turn ends with that turn. -/
theorem hashLoop_succ (n : Nat) : hashLoop (n + 1) = hashLoop n ++ hashblk := by
  induction n with
  | zero => rfl
  | succ n ih => rw [hashLoop, ih, ← List.append_assoc, ← hashLoop, ih]

@[simp] theorem blockProduced_h (s : State) : (blockProduced s).h = s.h := by simp [blockProduced]
@[simp] theorem blockProduced_hKnown (s : State) : (blockProduced s).hKnown = s.hKnown := by simp [blockProduced]

/-- `PADBLK` and then `COMPRESS`, in a state that is armed and whose `H` is known. -/
theorem execAll_hashblk {s : State} (hp : s.pstate = .armed) (hok : generatorOk s) (hk : s.hKnown = true) :
    execAll hashblk s = .next (blockFolded (blockProduced s)) := by
  have hops : operandsKnown (blockProduced s) := by simp [operandsKnown, hk]
  rw [hashblk, execAll, (effect_blockProduced hp hok).exec_eq]
  simp only [execAll, (effect_blockFolded hops).exec_eq]

/-- `n` turns of the loop from the armed state `s` have given `t`: `n` more blocks of the message are folded into `H`. -/
structure BlocksFolded (s : State) (n : Nat) (t : State) : Prop where
  h : t.h = chainFn s.h ((List.range n).map fun j => padBlock s.msg s.len.toNat (s.blk.toNat + j))
  hKnown : t.hKnown = true
  blk : t.blk.toNat = s.blk.toNat + n
  len : t.len = s.len
  msg : t.msg = s.msg
  pstate : t.pstate = if s.blk.toNat + n = blockCount s.len.toNat then .done else .armed

/-- No turn has folded no block. -/
theorem blocksFolded_zero {s : State} (hk : s.hKnown = true) (hp : s.pstate = .armed)
    (hblk : s.blk.toNat < blockCount s.len.toNat) : BlocksFolded s 0 s where
  h := rfl
  hKnown := hk
  blk := rfl
  len := rfl
  msg := rfl
  pstate := hp.trans (if_neg (Nat.ne_of_lt hblk)).symm

/-- One more turn folds the next block. -/
theorem BlocksFolded.succ {s t : State} {n : Nat} (ht : BlocksFolded s n t) (hL : s.len.toNat ≤ Config.maxLen)
    (hn : s.blk.toNat + n < blockCount s.len.toNat) :
    ∃ u, execAll hashblk t = .next u ∧ BlocksFolded s (n + 1) u := by
  obtain ⟨hh, hk, hblk, hlen, hmsg, hp⟩ := ht
  rw [if_neg (Nat.ne_of_lt hn)] at hp
  have hok : generatorOk t := (generatorOk_armed hp).2 (by rw [hlen, hblk]; exact ⟨hL, hn⟩)
  refine ⟨_, execAll_hashblk hp hok hk, ?_⟩
  exact {
    h := by
      rw [List.range_succ, List.map_append, List.map_singleton, chainFn_concat, ← hh, ← hblk, ← hlen, ← hmsg]
      simp
    hKnown := by simp [hk]
    blk := by rw [blockFolded_blk, blockProduced_blk hp hok, hblk, Nat.add_assoc]
    len := by simp [hlen]
    msg := by simp [hmsg]
    pstate := by rw [blockFolded_pstate, blockProduced_pstate hp hok, hblk, hlen, Nat.add_assoc] }

/-- `n` turns fold `n` blocks, as long as the message has them. -/
theorem BlocksFolded.iterate {s : State} (h : BlocksFolded s 0 s) (hL : s.len.toNat ≤ Config.maxLen) {n : Nat}
    (hn : s.blk.toNat + n ≤ blockCount s.len.toNat) : ∃ t, execAll (hashLoop n) s = .next t ∧ BlocksFolded s n t := by
  induction n with
  | zero => exact ⟨s, rfl, h⟩
  | succ n ih =>
    obtain ⟨t, hrun, ht⟩ := ih (by omega)
    obtain ⟨u, hturn, hu⟩ := ht.succ hL hn
    exact ⟨u, by rw [hashLoop_succ, execAll_append, hrun]; exact hturn, hu⟩

/-- Settles O55: no turn has folded no block, and each turn folds one more. -/
theorem hashLoopFoldsBlocksInOrder : Obligations.HashLoopFoldsBlocksInOrder := by
  intro s n hk hp hL hblk hn
  obtain ⟨t, hrun, ht⟩ := (blocksFolded_zero hk hp hblk).iterate hL hn
  exact ⟨t, hrun, ht.h, ht.hKnown, ht.blk, ht.len, ht.msg, ht.pstate⟩

end Sys2Proof.Machine
end

section
/-! The access commands and the host's two sequences: `LDW`, `RDM`, `RDH` and `RDSR` word by word, the digest as a number,
and what the sequences of commands leave in `H` (43_access_and_status.md R150 to R156). -/

namespace Sys2Proof.Machine

/-! ### Refused words (30_encoding.md R74, R77) -/

/-- `RDM` with a non-zero data field is refused. -/
theorem refusesWord_rdm_of_unusedData {data : Word} (hdata : data ≠ 0) (idx : BitVec 4) (s : State) :
    RefusesWord (cmdWord 0x3 idx data) s :=
  refusesWord_of_no_row (no_row_of_not_unusedFieldsZero (by simpa [UnusedFieldsZero] using hdata)) s

/-- `RDH` and `RDSR` with an index of four bits or a non-zero data field are refused. -/
theorem refusesWord_of_idxAboveSeven_or_unusedData {op idx : BitVec 4} {data : Word} (hop : op = 0x5 ∨ op = 0x8)
    (hbad : 8 ≤ idx.toNat ∨ data ≠ 0) (s : State) : RefusesWord (cmdWord op idx data) s := by
  refine refusesWord_of_no_row (no_row_of_not_unusedFieldsZero fun hzero => ?_) s
  have hfields : idx.toNat < 8 ∧ data = 0 := by
    rcases hop with rfl | rfl <;> simpa [UnusedFieldsZero] using hzero
  obtain ⟨hidx, hdata⟩ := hfields
  exact hbad.elim (Nat.not_le.2 hidx) (absurd hdata)

/-! ### `LDW` and `RDM` -/

/-- Settles O42: the effect of `LDW`, and that of an `RDM` of the word it has written. -/
theorem ldwWritesOneWord : Obligations.LdwWritesOneWord := by
  intro idx data s
  have he : Effect s (.ldw idx data) (respondOk 0 (writeBlockWord (blockIndex idx) data s)) := .ldw idx data
  refine ⟨_, ⟨he.exec_eq, rfl⟩, fun j => ?_, he.keeps_runningState nofun nofun, he.keeps_hidden nofun,
    he.keeps_generator_of_usesEngine rfl, fun a => by rw [he.msg_eq], he.port_eq, ?_⟩
  · simp [Vector.getElem_set, blockIndex, eq_comm (a := j.val)]
  · have hread := Effect.rdmKnown (s := respondOk 0 (writeBlockWord (blockIndex idx) data s)) (idx := idx) (by simp)
    exact ⟨_, hread.exec_eq, by simp⟩

/-- Settles O43: the two effects of `RDM`. -/
theorem rdmReadsBlockWord : Obligations.RdmReadsBlockWord := by
  intro idx s
  refine ⟨fun j hj hk => ?_, ?_, fun data hdata => refusesWord_rdm_of_unusedData hdata idx s⟩
  · obtain rfl : j = blockIndex idx := Fin.ext hj
    exact (Effect.rdmKnown hk).exec_eq
  · rcases Bool.eq_false_or_eq_true s.mKnown[blockIndex idx] with hk | hk
    · exact ⟨_, _, ⟨(Effect.rdmKnown hk).exec_eq, rfl⟩, rfl⟩
    · exact ⟨_, _, ⟨(Effect.rdmUnknown hk).exec_eq, rfl⟩, rfl⟩

/-! ### `RDH` and the digest -/

/-- The word of `H` with the number `idx` is the one that `RDH` selects. -/
theorem stateIndex_eq_some {idx : BitVec 4} {j : Fin 8} (hj : j.val = idx.toNat) : stateIndex idx = some j := by
  rw [stateIndex_of_lt (hj ▸ j.isLt)]
  exact congrArg some (Fin.ext hj.symm)

/-- Settles O44: the three effects of `RDH`. -/
theorem rdhReadsRunningState : Obligations.RdhReadsRunningState := by
  intro idx s
  refine ⟨fun j hj hk => (Effect.rdhKnown (stateIndex_eq_some hj) hk).exec_eq, fun hidx => ?_,
    fun hidx => (Effect.rdhIllegal (stateIndex_of_ge hidx)).exec_eq,
    fun data hbad => refusesWord_of_idxAboveSeven_or_unusedData (.inl rfl) hbad s⟩
  have hj := stateIndex_of_lt hidx
  rcases Bool.eq_false_or_eq_true s.hKnown with hk | hk
  · exact ⟨_, _, ⟨(Effect.rdhKnown hj hk).exec_eq, rfl⟩, rfl⟩
  · exact ⟨_, _, ⟨(Effect.rdhUnknown hj hk).exec_eq, rfl⟩, rfl⟩

/-- A word in front of a number of `n` bits has the place value `2^n`. -/
theorem toNat_word_append {n : Nat} (x : Word) (y : BitVec n) : (x ++ y).toNat = x.toNat * 2 ^ n + y.toNat := by
  rw [BitVec.toNat_append, ← Nat.shiftLeft_add_eq_or_of_lt y.isLt, Nat.shiftLeft_eq]

/-- Settles O46: `toNat_word_append` for each word of `H` but the last. -/
theorem digestIsMostSignificantWordFirst : Obligations.DigestIsMostSignificantWordFirst := by
  intro h
  simp only [digestOf, toNat_word_append, Nat.add_assoc]

/-! ### `RDSR` (10_state.md R30, R31) -/

/-- The block count of any length fits `NBLK`. -/
theorem blockCount_lt (len : DWord) : blockCount len.toNat < 2 ^ 64 := by
  have hlen := len.isLt
  unfold blockCount
  omega

/-- Settles O45: the view that each register number selects, read off `statusValue`. -/
theorem rdsrReadsStatusViews : Obligations.RdsrReadsStatusViews := by
  intro idx s nb st
  have hnb : (nblk s).toNat = nb := by
    cases hp : s.pstate with
    | armed | done => simpa [nb, nblk, hp] using blockCount_lt s.len
    | idle | error => simp [nb, nblk, hp]
  have hst : (statusValue .status s).toNat = st := by
    cases hp : s.pstate <;> simp [st, statusValue, hp, PState.number]
  refine ⟨fun hidx => ?_, fun hidx => ?_,
    fun data hbad => refusesWord_of_idxAboveSeven_or_unusedData (.inr rfl) hbad s⟩
  · obtain ⟨r, hr⟩ := Option.isSome_iff_exists.1 ((statusIndex_isSome_iff idx).2 hidx)
    refine ⟨_, (Effect.rdsrView hr).exec_eq, ?_, ?_, ?_, ?_, ?_, ?_, ?_, ?_⟩ <;> rintro rfl <;>
      obtain rfl := Option.some.inj hr
    · exact hst
    · exact toNat_lowHalf s.len
    · exact toNat_highHalf s.len
    · exact toNat_lowHalf s.blk
    · exact toNat_highHalf s.blk
    · exact hnb ▸ toNat_lowHalf (nblk s)
    · exact hnb ▸ toNat_highHalf (nblk s)
    · rfl
  · have hr : statusIndex idx = none := by
      rw [← Option.not_isSome_iff_eq_none, statusIndex_isSome_iff]
      exact Nat.not_lt.2 hidx
    exact (Effect.rdsrIllegal hr).exec_eq

/-! ### The host's sequence for a message in `MSG` (R155) -/

/-- A sequence goes on from the state its first command leaves. -/
theorem execAll_cons {i : Instr} {s t : State} (h : exec i s = .next t) (is : List Instr) :
    execAll (i :: is) s = execAll is t := by
  rw [execAll, h]

/-- The two halves make up the register (00_scope.md R6). -/
theorem highHalf_append_lowHalf (v : DWord) : highHalf v ++ lowHalf v = v := by
  have hdiv := Nat.div_add_mod' v.toNat (2 ^ 32)
  exact BitVec.eq_of_toNat_eq (by rw [toNat_append_words, toNat_highHalf, toNat_lowHalf, hdiv])

/-- The state when `LEN` has been loaded. -/
theorem execAll_ldlen (len : DWord) (s : State) :
    execAll (ldlen len) s = .next (respondOk 0 (disarm { s with len := len })) := by
  rw [ldlen, execAll_load_high_low, lengthLoaded, highHalf_append_lowHalf]

/-- The state before the first block of a message of `len` bytes: armed at block 0, `H` the initial state. -/
def messageArmed (len : DWord) (s : State) : State :=
  respondOk 0 (writeRunningState initialState (arm { s with len := len }))

/-- The commands before the loop, for an accepted length. -/
theorem execAll_ldlen_padinit_init {len : DWord} (hL : len.toNat ≤ Config.maxLen) (s : State) :
    execAll (ldlen len ++ [.padinit, .init]) s = .next (messageArmed len s) := by
  have he := Effect.padinitArm (s := respondOk 0 (disarm { s with len := len })) hL
  rw [execAll_append, execAll_ldlen]
  exact execAll_cons he.exec_eq _

/-- The commands before the loop, for a length above the bound: the sequence stops in `ERROR` (R98, R103). -/
theorem execAll_ldlen_padinit {len : DWord} (hL : Config.maxLen < len.toNat) (s : State) :
    execAll (ldlen len ++ [.padinit]) s = .next (raiseCode .dataTooLarge (enterError { s with len := len })) := by
  have he := Effect.padinitError (s := respondOk 0 (disarm { s with len := len })) hL
  rw [execAll_append, execAll_ldlen]
  exact execAll_cons he.exec_eq _

/-- The whole sequence folds every block of the message. -/
theorem execAll_hashSequence {len : DWord} (hL : len.toNat ≤ Config.maxLen) (s : State) :
    ∃ t, execAll (hashSequence len) s = .next t ∧ BlocksFolded (messageArmed len s) (blockCount len.toNat) t := by
  have hstart : BlocksFolded (messageArmed len s) 0 (messageArmed len s) :=
    blocksFolded_zero rfl rfl (blockCount_pos len.toNat)
  obtain ⟨t, hrun, ht⟩ := hstart.iterate hL (n := blockCount len.toNat) (Nat.le_of_eq (Nat.zero_add _))
  refine ⟨t, ?_, ht⟩
  rw [hashSequence, execAll_append, execAll_ldlen_padinit_init hL]
  exact hrun

/-- Settles O56: `H` after the sequence is that of `BlocksFolded`; above the bound `PADINIT` enters `ERROR`. -/
theorem hostSequenceYieldsTheDigest : Obligations.HostSequenceYieldsTheDigest := by
  intro s len
  refine ⟨fun hL => ?_, fun hL => ⟨_, execAll_ldlen_padinit hL s, rfl, ⟨rfl, rfl⟩, ⟨rfl, rfl⟩⟩⟩
  · obtain ⟨t, hrun, hh, hk, hblk, hlen, hmsg, hp⟩ := execAll_hashSequence hL s
    have hcount : (messageArmed len s).blk.toNat + blockCount len.toNat = blockCount len.toNat := Nat.zero_add _
    refine ⟨t, hrun, ?_, hk, hlen, hblk.trans hcount, hp.trans (if_pos hcount), hmsg, fun idx j hj =>
      ⟨_, (Effect.rdhKnown (stateIndex_eq_some hj) hk).exec_eq, rfl⟩⟩
    simpa [messageArmed] using hh

/-! ### The host's sequence for blocks of its own (R156) -/

/-- Write the words `f i` of a register file at the indices `is`, in order. -/
def setWords {α : Type} {n : Nat} (f : Fin n → α) (is : List (Fin n)) (v : Vector α n) : Vector α n :=
  is.foldl (fun v (i : Fin n) => v.set i (f i)) v

/-- A word that is written reads as written, every other one as before. -/
theorem setWords_getElem {α : Type} {n : Nat} (f : Fin n → α) (is : List (Fin n)) (v : Vector α n) (j : Fin n) :
    (setWords f is v)[j] = if j ∈ is then f j else v[j] := by
  induction is generalizing v with
  | nil => rfl
  | cons i is ih =>
    rw [setWords, List.foldl_cons, ← setWords, ih]
    by_cases hj : j = i
    · subst hj; simp
    · have hval : ¬ i.val = j.val := fun h => hj (Fin.ext h.symm)
      simp [hj, hval]

/-- All words written leave nothing of the old ones. -/
theorem setWords_finRange {α : Type} {n : Nat} (b v : Vector α n) : setWords (fun i => b[i]) (List.finRange n) v = b :=
  Vector.ext fun i hi => by simpa using setWords_getElem (fun i => b[i]) (List.finRange n) v ⟨i, hi⟩

/-- The index operand that names word `i` selects it (30_encoding.md R75). -/
theorem blockIndex_ofNat (i : Fin 16) : blockIndex (BitVec.ofNat 4 i.val) = i :=
  Fin.ext (Nat.mod_eq_of_lt i.isLt)

/-- A sequence of `LDW` writes the words it names. -/
theorem execAll_map_ldw (b : Vector Word 16) (is : List (Fin 16)) (s : State) :
    execAll (is.map fun i => .ldw (BitVec.ofNat 4 i.val) b[i]) (respondOk 0 s) =
      .next (respondOk 0 { s with
        m := setWords (fun i => b[i]) is s.m, mKnown := setWords (fun _ => true) is s.mKnown }) := by
  induction is generalizing s with
  | nil => rfl
  | cons i is ih =>
    have he := Effect.ldw (s := respondOk 0 s) (BitVec.ofNat 4 i.val) b[i]
    rw [blockIndex_ofNat] at he
    rw [List.map_cons, execAll_cons he.exec_eq]
    exact ih (writeBlockWord i b[i] s)

/-- `LDBLK` writes the whole block (R82). -/
theorem execAll_ldblk (b : Vector Word 16) (s : State) : execAll (ldblk b) s = .next (respondOk 0 (writeBlock b s)) := by
  have hknown (v : Vector Bool 16) : setWords (fun _ => true) (List.finRange 16) v = Vector.replicate 16 true := by
    simpa using setWords_finRange (Vector.replicate 16 true) v
  have hrun := execAll_map_ldw b (List.finRange 16) s
  rw [setWords_finRange, hknown] at hrun
  exact hrun

/-- `LDBLK` and then `COMPRESS`, in a state whose `H` is known. -/
theorem execAll_ldblk_compress {s : State} (hk : s.hKnown = true) (b : Vector Word 16) :
    execAll (ldblk b ++ [.compress]) s = .next (blockFolded (respondOk 0 (writeBlock b s))) := by
  have hops : operandsKnown (respondOk 0 (writeBlock b s)) := by simp [operandsKnown, hk]
  rw [execAll_append, execAll_ldblk]
  exact execAll_cons (effect_blockFolded hops).exec_eq []

/-- The loop over the host's blocks chains them from the `H` it finds (R144). -/
theorem execAll_engineSequence (bs : List (Vector Word 16)) {s : State} (hk : s.hKnown = true) :
    ∃ t, execAll (engineSequence bs) s = .next t ∧ t.h = chainFn s.h bs ∧ t.hKnown = true ∧ sameGenerator s t ∧
      t.msg = s.msg := by
  induction bs generalizing s with
  | nil => exact ⟨s, rfl, rfl, hk, ⟨rfl, rfl, rfl⟩, rfl⟩
  | cons b bs ih =>
    obtain ⟨t, hrun, hh, hkt, ⟨hlen, hblk, hp⟩, hmsg⟩ :=
      ih (s := blockFolded (respondOk 0 (writeBlock b s))) (by simp [hk])
    refine ⟨t, ?_, ?_, hkt, ?_, ?_⟩
    · rw [engineSequence, execAll_append, execAll_ldblk_compress hk]
      exact hrun
    · simpa [chainFn] using hh
    · exact ⟨by simpa using hlen, by simpa using hblk, by simpa using hp⟩
    · simpa using hmsg

/-- Settles O57: `INIT` gives the initial state, and the loop chains the blocks from there. -/
theorem engineAloneChainsHostBlocks : Obligations.EngineAloneChainsHostBlocks := by
  intro s bs
  obtain ⟨t, hrun, hh, hk, hgen, hmsg⟩ :=
    execAll_engineSequence bs (s := respondOk 0 (writeRunningState initialState s)) rfl
  exact ⟨t, hrun, hh, hk, hgen, fun a => by rw [hmsg]; rfl⟩

end Sys2Proof.Machine
end

section
/-! Error answers: what they change, their order, and the state `ERROR` of the generator (60_exceptions.md R175 to R177). -/

namespace Sys2Proof.Machine

/-! ### What an error changes (R176) -/

/-- The code of an answer `OK`. -/
theorem code_of_respondOk {v : Word} {s : State} {r : Response} (hr : (respondOk v s).rsp = some r) : r.code = .ok := by
  obtain rfl := Option.some.inj ((respondOk_rsp v s).symm.trans hr)
  rfl

/-- An error answer has the code raised and writes the response only (00_scope.md R10). -/
theorem code_and_eq_of_raiseCode {c : RspCode} {s : State} {r : Response} (hr : (raiseCode c s).rsp = some r) :
    r.code = c ∧ raiseCode c s = { s with rsp := some r } := by
  obtain rfl := Option.some.inj ((raiseCode_rsp c s).symm.trans hr)
  exact ⟨rfl, rfl⟩

/-- An error answer of a command leaves the state as it is, but for the two registers that `PADINIT` writes (R176). -/
theorem Effect.eq_of_error {i : Instr} {s t : State} {r : Response} (h : Effect s i t) (hr : t.rsp = some r)
    (hc : r.code ≠ .ok) :
    (i = .padinit ∧ r.code = .dataTooLarge ∧ t = { s with blk := 0, pstate := .error, rsp := some r }) ∨
    (i ≠ .padinit ∧ t = { s with rsp := some r }) := by
  cases h with
  | padinitError => exact .inl ⟨rfl, code_and_eq_of_raiseCode hr⟩
  | rdhIllegal => exact .inr ⟨nofun, (code_and_eq_of_raiseCode hr).2⟩
  | rdsrIllegal => exact .inr ⟨nofun, (code_and_eq_of_raiseCode hr).2⟩
  | padblkError => exact .inr ⟨nofun, (code_and_eq_of_raiseCode hr).2⟩
  | padblkSequence => exact .inr ⟨nofun, (code_and_eq_of_raiseCode hr).2⟩
  | _ => exact absurd (code_of_respondOk hr) hc

/-- Settles O10: the error answers of the commands, and the refusal of an illegal word. -/
theorem errorsChangeNothingElse : Obligations.ErrorsChangeNothingElse :=
  ⟨fun _ _ _ _ h => (exec_eq_next_iff.1 h).eq_of_error, fun _ s hw => refusesWord_of_illegal hw s⟩

/-! ### The state `ERROR` (R177) -/

/-- In `ERROR` the length is above the bound, so `PADINIT` does not leave it; no command but a length load does. -/
theorem Effect.keeps_error {i : Instr} {s t : State} (h : Effect s i t) (hok : generatorOk s) (hp : s.pstate = .error)
    (hl : loadsLength i = false) : t.pstate = .error := by
  by_cases hi : i = .padinit
  · subst hi
    exact (h.padinit_tooLarge ((generatorOk_error hp).1 hok).1).1
  by_cases hb : i = .padblk
  · subst hb
    rw [h.eq (.padblkError hp), raiseCode_pstate, hp]
  · exact (h.blk_pstate_eq hl hi hb).2.trans hp

/-- A well-formed engine command is answered `OK` in every state (42_compression_engine.md R141, R142; R150 to R152). -/
theorem Effect.rsp_ok_of_usesEngine {i : Instr} {s t : State} (h : Effect s i t) (hi : usesEngine i = true)
    (hwf : i.wf = true) : ∃ v, t.rsp = some ⟨.ok, v⟩ := by
  cases h with
  | rdhIllegal hj =>
    have hsome := stateIndex_of_lt (of_decide_eq_true hwf)
    exact nomatch hj.symm.trans hsome
  | rdsrIllegal => cases hi
  | padinitError => cases hi
  | padblkError => cases hi
  | padblkSequence => cases hi
  | _ => exact ⟨_, respondOk_rsp _ _⟩

/-- Settles O11: a length load disarms the generator, every other command keeps `ERROR`, and no engine command looks at
`PSTATE`. -/
theorem errorIsLeftOnlyByLengthLoadOrReset : Obligations.ErrorIsLeftOnlyByLengthLoadOrReset := by
  intro s hinv hp
  refine ⟨fun i t h => ⟨fun hleft => ?_, fun hl => ?_⟩, fun i hl => ?_, rfl, fun i hi hwf => ?_⟩
  · by_contra hl
    exact hleft ((exec_eq_next_iff.1 h).keeps_error hinv.generator hp (Bool.eq_false_iff.2 hl))
  · obtain ⟨hidle, -, -⟩ := (exec_eq_next_iff.1 h).of_loadsLength hl
    simp [hidle]
  · obtain ⟨t, he⟩ := exists_effect_of_inv hinv i
    obtain ⟨hidle, -, -⟩ := he.of_loadsLength hl
    exact ⟨t, he.exec_eq, hidle⟩
  · obtain ⟨t, he⟩ := exists_effect_of_usesEngine hi s
    obtain ⟨v, hrsp⟩ := he.rsp_ok_of_usesEngine hi hwf
    exact ⟨t, v, he.exec_eq, hrsp⟩

/-! ### The order of the checks (R175) -/

/-- Settles O9: the port refuses an illegal word in every state, and the checks of `PADBLK` and `PADINIT` are the guards of
their error answers. -/
theorem errorPriority : Obligations.ErrorPriority := fun s =>
  ⟨fun _ hw => refusesWord_of_illegal hw s,
    fun hp => ⟨_, answers_padblk_dataTooLarge hp⟩,
    fun hp => ⟨_, answers_padblk_sequenceError hp⟩,
    fun hL => ⟨_, (Effect.padinitError hL).exec_eq, raiseCode_rsp _ _⟩⟩

end Sys2Proof.Machine
end

section
/-! Reset and repetition of commands (70_reset_and_hazards.md R190, R192, R196). -/

namespace Sys2Proof.Machine

/-- `COMPRESS` does not write `M`, and leaves its words known when they were (R142). -/
theorem sameBlock_blockFolded {s : State} (hk : operandsKnown s) : sameBlock s (blockFolded s) :=
  (effect_blockFolded hk).keeps_block (fun _ _ => nofun) nofun

/-- After a `COMPRESS` of known operands the operands are known again, so that it can be given twice (R38). -/
theorem operandsKnown_blockFolded {s : State} (hk : operandsKnown s) : operandsKnown (blockFolded s) := by
  obtain ⟨-, hmKnown⟩ := sameBlock_blockFolded hk
  exact ⟨(blockFolded_hKnown s).trans hk.1, hmKnown ▸ hk.2⟩

/-- The answer of `COMPRESS` of known operands (R142). -/
theorem answers_blockFolded {s : State} (hk : operandsKnown s) : Answers .compress s (blockFolded s) .ok 0 :=
  ⟨(effect_blockFolded hk).exec_eq, blockFolded_rsp s⟩

/-- Settles O25: the second `COMPRESS` finds the block that the first one found, and the `H` that it left. -/
theorem compressTwiceFoldsTheBlockTwice : Obligations.CompressTwiceFoldsTheBlockTwice := by
  intro s hk
  have hk' := operandsKnown_blockFolded hk
  have hm : (blockFolded s).m = s.m := (sameBlock_blockFolded hk).1
  have hm' : (blockFolded (blockFolded s)).m = (blockFolded s).m := (sameBlock_blockFolded hk').1
  refine ⟨_, _, answers_blockFolded hk, answers_blockFolded hk', ?_, hm'.trans hm⟩
  rw [blockFolded_h, blockFolded_h, hm]

/-- Reset between commands and reset that cuts one short are the same event (R190, R192). -/
theorem step_of_reset_or_commandCut {s : State} {m : HostMove} {rest : List HostMove} (hport : s.port = m :: rest)
    (hm : m = .reset ∨ ∃ w, m = .commandCut w) : step s = .next (resetDevice { s with port := rest }) := by
  obtain rfl | ⟨w, rfl⟩ := hm
  · exact step_of_port_reset hport
  · exact step_of_port_commandCut hport

/-- Reset leaves every word of `M` unknown (10_state.md R37). -/
theorem resetDevice_mKnown (s : State) (i : Fin 16) : (resetDevice s).mKnown[i] = false :=
  Vector.getElem_replicate i.isLt

/-- Settles O50: both moves are `resetDevice`, whose fields are those of R37 and which keeps `MSG` and the port. -/
theorem resetMoveLeavesResetState : Obligations.ResetMoveLeavesResetState := by
  intro s rest m hport hm
  exact ⟨_, step_of_reset_or_commandCut hport hm, rfl, rfl, rfl, rfl, rfl, rfl, rfl, resetDevice_mKnown _,
    fun _ => rfl, rfl⟩

end Sys2Proof.Machine
end
